-- ==== Sys2Proof/Word.lean ====
section
/-! DEFINITION. The word types of the block: register-bus words, payload bytes and command descriptors.
Bit 0 is the least significant bit of every word (00_scope.md R12). -/

namespace Sys2Proof

/-- A 32-bit word of the register bus, or an address on it (R50, R52). -/
abbrev Word := BitVec 32

/-- A payload byte (R56). -/
abbrev Byte := BitVec 8

/-- A command descriptor (R70). -/
abbrev Desc := BitVec 64

end Sys2Proof
end

