-- ==== Sys2Proof/Config.lean ====
section
/-! DEFINITION. What an implementation fixes (the parameters of 00_scope.md R10 and 10_state.md R33 to R38), the
constants the document fixes, and the free values. -/

namespace Sys2Proof

/-- One I2C peripheral instance: its register block and its bits in the reset-control unit (R33). -/
structure Instance where
  /-- `I2C_BASE[i]`. -/
  base : Word
  /-- `RST_BIT[i]`, in APB1RSTR. -/
  rstBit : Nat
  /-- `EN_BIT[i]`, in APB1ENR, which the block never accesses (R123). -/
  enBit : Nat
  deriving DecidableEq, Repr

/-- The parameters the block takes (R10). A `Config` is part of the state only so that every statement ranges over
every setting of them; no step changes it (log 3). -/
structure Config where
  /-- The instances in code order; their number is `NINST` (R10, R72, log 7). -/
  instances : List Instance
  offCr1 : Word
  offCr2 : Word
  offTimingr : Word
  offIsr : Word
  offTxdr : Word
  rccApb1Rstr : Word
  rccApb1Enr : Word
  peBit : Nat
  /-- `SADD_LO`, the lowest bit of CR2's SADD field (R35). -/
  saddLo : Nat
  rdWrnBit : Nat
  add10Bit : Nat
  head10rBit : Nat
  startBit : Nat
  reloadBit : Nat
  autoendBit : Nat
  txeBit : Nat
  nackfBit : Nat
  /-- `SADD7_SHIFT`. -/
  sadd7Shift : Nat
  /-- `HEAD10R_7BIT`. -/
  head10r7 : BitVec 1
  /-- `HEAD10R_10BIT`. -/
  head10r10 : BitVec 1
  /-- `LEGACY_OR_LOAD`. -/
  legacyOrLoad : Bool
  /-- `POLL_LIMIT`, an OPEN parameter in 0 .. 2^32 - 1 (R10, R145); 0 is unbounded polling. -/
  pollLimit : BitVec 32
  deriving DecidableEq, Repr

/-- `NINST` (R10). -/
def Config.ninst (c : Config) : Nat := c.instances.length

/-- The spec's defaults (R10, R33 to R37). PRESUMED as the spec takes them from general knowledge (log 5). `POLL_LIMIT`
is OPEN; 0, the source's behaviour, stands here as a DESIGN CHOICE (log 4). -/
def Config.default : Config where
  instances := [⟨0x40005400#32, 21, 21⟩, ⟨0x40005800#32, 22, 22⟩, ⟨0x40007800#32, 30, 30⟩]
  offCr1 := 0x00#32
  offCr2 := 0x04#32
  offTimingr := 0x10#32
  offIsr := 0x18#32
  offTxdr := 0x28#32
  rccApb1Rstr := 0x40021010#32
  rccApb1Enr := 0x4002101C#32
  peBit := 0
  saddLo := 0
  rdWrnBit := 10
  add10Bit := 11
  head10rBit := 12
  startBit := 13
  reloadBit := 24
  autoendBit := 25
  txeBit := 0
  nackfBit := 4
  sadd7Shift := 1
  head10r7 := 1#1
  head10r10 := 0#1
  legacyOrLoad := false
  pollLimit := 0#32

/-- `SEG_MAX`: the largest NBYTES value and the largest segment (R10). -/
def Config.segMax : Nat := 255

/-- `ADDR7_MAX`: the largest address sent in 7-bit mode (R10). -/
def Config.addr7Max : Nat := 127

/-- `ADDR10_MAX`: the largest valid target address (R10). -/
def Config.addr10Max : Nat := 1023

/-- `F_I2CCLK` in Hz, fixed (R10, R104); nothing the block does depends on it. -/
def Config.fI2cClk : Nat := 8000000

/-- Free value: the environment's answer to a register-bus read that no scheduled reply answers, one per draw (R53,
log 12). No body: nothing can be proved of it. -/
opaque Config.freeBusWord : Nat → Word

/-- Free value: the byte on the payload port at an index the host gave no byte for, one per draw (log 11). -/
opaque Config.freePayByte : Nat → Byte

end Sys2Proof
end

