-- ==== Sys2Proof/Syntax.lean ====
section
/-! DEFINITION. The commands of the command port, one constructor per row of spec/opcode_table.json (30_encoding.md
R71, R77). -/

namespace Sys2Proof

/-- The speed grades, the closed set R73 asks for. -/
inductive Grade where
  /-- Standard, 100 kHz. -/
  | std
  /-- Fast, 400 kHz. -/
  | fast
  /-- Fast-Plus, 500 kHz. -/
  | fastPlus
  deriving DecidableEq, Repr

/-- A command. An instance operand is its 2-bit code, since which codes name an instance depends on `NINST` (R72). -/
inductive Instr where
  /-- CALC: evaluate the calculator (R111). -/
  | calculate (g : Grade)
  /-- INIT: reset the instance, load its timing register, enable it (R112). -/
  | init (inst : BitVec 2) (g : Grade)
  /-- WRITE: send `len` payload bytes to target `addr` (R130). -/
  | write (inst : BitVec 2) (addr : BitVec 16) (len : BitVec 32)
  /-- RESERVED: any descriptor that is no command (R78), kept whole because its fields are latched (R110). -/
  | reserved (d : Desc)
  deriving DecidableEq, Repr

end Sys2Proof
end

