-- ==== Sys2Proof/WellFormed.lean ====
section
/-! DEFINITION. Which terms of `Instr` are commands of a block with `ninst` instances (30_encoding.md R72, R76, R78). -/

namespace Sys2Proof

/-- An instance code below `NINST` (R72). -/
def instOk (ninst : Nat) (inst : BitVec 2) : Bool := inst.toNat < ninst

/-- The reserved descriptors, from the list in R78: OP = 11; RSV nonzero; a used-must-be-zero field nonzero;
INST >= NINST; GRADE = 11 where GRADE is used. -/
def descReserved (ninst : Nat) (d : Desc) : Bool :=
  let op : BitVec 2 := d.extractLsb' 62 2
  let inst : BitVec 2 := d.extractLsb' 60 2
  let grade : BitVec 2 := d.extractLsb' 58 2
  let rsv : BitVec 10 := d.extractLsb' 48 10
  let addrLen : BitVec 48 := d.extractLsb' 0 48
  op == 3#2 || rsv != 0#10
    || (op == 0#2 && (inst != 0#2 || addrLen != 0#48 || grade == 3#2))
    || (op == 1#2 && (addrLen != 0#48 || !instOk ninst inst || grade == 3#2))
    || (op == 2#2 && (grade != 0#2 || !instOk ninst inst))

/-- Well-formed commands: INIT and WRITE name an instance, RESERVED carries a reserved descriptor. CALC's only operand
is a grade, which is closed. -/
def Instr.wf (ninst : Nat) : Instr → Bool
  | .calculate _ => true
  | .init inst _ => instOk ninst inst
  | .write inst _ _ => instOk ninst inst
  | .reserved d => descReserved ninst d

end Sys2Proof
end

