-- ==== Sys2Proof/Decode.lean ====
section
/-! DEFINITION. The decoder of 30_encoding.md R75, total on 64-bit descriptors, rejecting by name, and the encoder of
R70. -/

namespace Sys2Proof

/-! ## Fields (R70, R74) -/

def descOp (d : Desc) : BitVec 2 := d.extractLsb' 62 2
def descInst (d : Desc) : BitVec 2 := d.extractLsb' 60 2
def descGrade (d : Desc) : BitVec 2 := d.extractLsb' 58 2
def descRsv (d : Desc) : BitVec 10 := d.extractLsb' 48 10
def descAddr (d : Desc) : BitVec 16 := d.extractLsb' 32 16
def descLen (d : Desc) : BitVec 32 := d.extractLsb' 0 32

/-- The 2-bit code of a grade (R73). -/
def gradeCode : Grade → BitVec 2
  | .std => 0#2
  | .fast => 1#2
  | .fastPlus => 2#2

/-- The grade a code stands for; 11 is reserved (R73). -/
def gradeOf (c : BitVec 2) : Option Grade :=
  if c = 0#2 then some .std
  else if c = 1#2 then some .fast
  else if c = 2#2 then some .fastPlus
  else none

/-- Why a descriptor is INVALID (R75, R78), in the order the checks are made (R175). -/
inductive Reject where
  | opReserved
  | rsvNonzero
  | unusedNonzero
  | instReserved
  | gradeReserved
  deriving DecidableEq, Repr

/-- `decode(cmd)` of R75, with the reason of an INVALID answer. -/
def decodeCmd (ninst : Nat) (d : Desc) : Except Reject Instr :=
  if descOp d = 3#2 then .error .opReserved
  else if descRsv d ≠ 0#10 then .error .rsvNonzero
  else if descOp d = 0#2 then
    if descInst d ≠ 0#2 ∨ descAddr d ≠ 0#16 ∨ descLen d ≠ 0#32 then .error .unusedNonzero
    else match gradeOf (descGrade d) with
      | none => .error .gradeReserved
      | some g => .ok (.calculate g)
  else if descOp d = 1#2 then
    if descAddr d ≠ 0#16 ∨ descLen d ≠ 0#32 then .error .unusedNonzero
    else if ninst ≤ (descInst d).toNat then .error .instReserved
    else match gradeOf (descGrade d) with
      | none => .error .gradeReserved
      | some g => .ok (.init (descInst d) g)
  else if descGrade d ≠ 0#2 then .error .unusedNonzero
  else if ninst ≤ (descInst d).toNat then .error .instReserved
  else .ok (.write (descInst d) (descAddr d) (descLen d))

/-- The command a descriptor is: a command of R71, or RESERVED (R78). -/
def decode (ninst : Nat) (d : Desc) : Instr :=
  match decodeCmd ninst d with
  | .ok i => i
  | .error _ => .reserved d

/-! ## Encoding (R70) -/

/-- The descriptor with the given fields, bit 63 first (R70). -/
def descOf (op inst grade : BitVec 2) (rsv : BitVec 10) (addr : BitVec 16) (len : BitVec 32) : Desc :=
  op ++ inst ++ grade ++ rsv ++ addr ++ len

/-- The descriptor of a command; unused fields are zero (R76, R77). -/
def encode : Instr → Desc
  | .calculate g => descOf 0#2 0#2 (gradeCode g) 0#10 0#16 0#32
  | .init inst g => descOf 1#2 inst (gradeCode g) 0#10 0#16 0#32
  | .write inst addr len => descOf 2#2 inst 0#2 0#10 addr len
  | .reserved d => d

/-- The host's table view: the command of the descriptor `w`, `nbits` of whose bits the table gives, under the default
`NINST`. A descriptor has 64 bits (R79); a wider word is none (log 29). -/
def decodeTableWord (nbits w : Nat) : Option Instr :=
  if w % 2 ^ nbits < 2 ^ 64 then
    some (decode (Config.ninst Config.default) (BitVec.ofNat 64 (w % 2 ^ nbits)))
  else none

end Sys2Proof
end

