-- ==== Sys2Proof/Machine/State.lean ====
section
/-! DEFINITION. The state of the block: every register of 10_state.md R21, its ports, the record of its bus events, the
parameters, and the reasons a step can stop. Plain data. -/

namespace Sys2Proof.Machine

/-- The 14 named states of `STATE` (R23); the codes 0xE and 0xF are unrepresentable, as R26 allows (log 1). -/
inductive FsmState where
  | IDLE
  | I_RST_RD1
  | I_RST_SET
  | I_RST_RD2
  | I_RST_CLR
  | I_TIM_RD
  | I_TIM_WR
  | I_PE_RD
  | I_PE_WR
  | W_ADDR
  | W_SEG
  | W_NACK
  | W_TXE
  | W_DATA
  deriving DecidableEq, Repr

/-- The outcomes (R27, R170); the codes 6 and 7 are never written and are unrepresentable (log 2). -/
inductive CmdOutcome where
  | NONE
  | COMPLETE
  | INVALID_ADDRESS
  | ABORTED_NACK
  | TIMEOUT
  | INVALID_COMMAND
  deriving DecidableEq, Repr

/-- A register-bus event (R53, R54). -/
inductive BusEvent where
  /-- `Rd(a, v)`: a read at `a` that the environment answered `v`. -/
  | rd (a v : Word)
  /-- `Wr(a, v)`: a write of `v` at `a`. -/
  | wr (a v : Word)
  deriving DecidableEq, Repr

/-- What the host presents on the command port: a descriptor (R28) and the payload it supplies with it (R56). -/
structure Command where
  desc : Desc
  payload : List Byte
  deriving DecidableEq, Repr

/-- The state. The fields in capitals are the registers of R21 under the spec's names. -/
structure State where
  STATE : FsmState
  OP : BitVec 2
  INST : BitVec 2
  GRADE : BitVec 2
  ADDR : BitVec 16
  LEN : BitVec 32
  REM : BitVec 32
  SEGLEFT : BitVec 8
  FINAL : Bool
  IDX : BitVec 32
  CR2_BASE : Word
  TMP : Word
  POLLCNT : BitVec 32
  OUTCOME : CmdOutcome
  RES_TIMINGR : Word
  /-- Command port: the commands the host presents, in order; `cmd_valid` = 1 when it is not empty (R28, log 8). -/
  cmdQueue : List Command
  /-- The bytes behind the payload read port, those of the current command (R32, R56, log 10). -/
  payload : List Byte
  /-- Reset input (R190, log 14). -/
  rst : Bool
  /-- Calculator port input `calc_grade` (R30). -/
  calcGrade : BitVec 2
  /-- The environment's coming answers to register-bus reads (R53, log 12). -/
  replies : List Word
  /-- Set when the environment never completes a bus access (R55, log 13). -/
  busStall : Bool
  /-- The bus events so far, oldest first (R53, R54, R63, log 30). -/
  events : List BusEvent
  /-- The model's own: how many free values have been drawn (log 11, log 12). -/
  draws : Nat
  /-- The parameters (R10, log 3). -/
  cfg : Config
  deriving DecidableEq, Repr

/-- The state after reset: R40 for the registers, nothing presented and no event, the default parameters (log 4,
log 23). -/
def State.reset : State where
  STATE := .IDLE
  OP := 0#2
  INST := 0#2
  GRADE := 0#2
  ADDR := 0#16
  LEN := 0#32
  REM := 0#32
  SEGLEFT := 0#8
  FINAL := false
  IDX := 0#32
  CR2_BASE := 0#32
  TMP := 0#32
  POLLCNT := 0#32
  OUTCOME := .NONE
  RES_TIMINGR := 0#32
  cmdQueue := []
  payload := []
  rst := false
  calcGrade := 0#2
  replies := []
  busStall := false
  events := []
  draws := 0
  cfg := Config.default

/-- Why the machine stops. -/
inductive Fault where
  /-- Raised by every step that accesses the register bus while the environment never completes accesses: "the
  sequencer is stuck in that step (no successor state)" (R55, U11). Safe: the block has no successor either. -/
  | busAccessNeverCompletes
  /-- Raised by a busy state whose INST names no instance of the configuration, so that the register block it would
  access does not exist (R33, R72). No run reaches such a state. Safe: it only stops (log 18). -/
  | noSuchInstance
  deriving DecidableEq, Repr

/-- Why the model does not run. -/
inductive Refusal where
  /-- Raised by exec's arm of an instruction that has no meaning yet; no arm does. Safe. -/
  | notModelled (mnemonic : String)
  /-- Raised by every step under parameters that break R11: "refused by the model before any run (it spells no block)".
  Safe (log 6). -/
  | configSpellsNoBlock
  deriving DecidableEq, Repr

end Sys2Proof.Machine
end

