-- ==== Sys2Proof/Machine/Flags.lean ====
section
/-! DEFINITION. The flags and the status port (10_state.md R25, R29), the codes of STATE and OUTCOME (R23, R27), and the
tests on an ISR answer (R37). -/

namespace Sys2Proof.Machine

/-- The 4-bit code of a state (R23). -/
def stateCode : FsmState → BitVec 4
  | .IDLE => 0x0#4
  | .I_RST_RD1 => 0x1#4
  | .I_RST_SET => 0x2#4
  | .I_RST_RD2 => 0x3#4
  | .I_RST_CLR => 0x4#4
  | .I_TIM_RD => 0x5#4
  | .I_TIM_WR => 0x6#4
  | .I_PE_RD => 0x7#4
  | .I_PE_WR => 0x8#4
  | .W_ADDR => 0x9#4
  | .W_SEG => 0xA#4
  | .W_NACK => 0xB#4
  | .W_TXE => 0xC#4
  | .W_DATA => 0xD#4

/-- The 3-bit outcome code (R27). -/
def outcomeCode : CmdOutcome → BitVec 3
  | .NONE => 0#3
  | .COMPLETE => 1#3
  | .INVALID_ADDRESS => 2#3
  | .ABORTED_NACK => 3#3
  | .TIMEOUT => 4#3
  | .INVALID_COMMAND => 5#3

/-- `BUSY = (STATE != IDLE)` (R25). -/
def busy (s : State) : Bool := s.STATE != .IDLE

/-- `cmd_ready = not BUSY` (R25). -/
def cmdReady (s : State) : Bool := !busy s

/-- `cmd_valid`: the host presents a command (R28). -/
def cmdValid (s : State) : Bool := !s.cmdQueue.isEmpty

/-- The status port (R29). -/
structure StatusPort where
  busy : Bool
  cmdReady : Bool
  outcome : BitVec 3
  resTimingr : Word
  deriving DecidableEq, Repr

/-- What a read of the status port shows; it has no side effect (R29). -/
def statusPort (s : State) : StatusPort := ⟨busy s, cmdReady s, outcomeCode s.OUTCOME, s.RES_TIMINGR⟩

/-- `r[NACKF_BIT]` of an ISR answer (R37, R136). -/
def nackfOf (c : Config) (r : Word) : Bool := r.getLsbD c.nackfBit

/-- `r[TXE_BIT]` of an ISR answer (R37, R137). -/
def txeOf (c : Config) (r : Word) : Bool := r.getLsbD c.txeBit

/-- Whether a TXE wait whose counter stands at `pollcnt` ends with TIMEOUT at this TXE = 0 read (R137). -/
def pollExpired (c : Config) (pollcnt : BitVec 32) : Bool :=
  c.pollLimit != 0#32 && decide (c.pollLimit.toNat ≤ pollcnt.toNat + 1)

/-- `min(POLLCNT + 1, 2^32 - 1)` (R137). -/
def pollNext (pollcnt : BitVec 32) : BitVec 32 := BitVec.ofNat 32 (min (pollcnt.toNat + 1) (2 ^ 32 - 1))

end Sys2Proof.Machine
end

