-- ==== Sys2Proof/Machine/Operands.lean ====
section
/-! DEFINITION. Register addresses, masks and the composed words: how an instance, a target address and a segment turn
into bus addresses and register words. -/

namespace Sys2Proof.Machine

/-- `1 << n` (R12). -/
def bitMask (n : Nat) : Word := 1#32 <<< n

/-- `(bit << n)` for a one-bit value. -/
def bitAt (b : BitVec 1) (n : Nat) : Word := b.setWidth 32 <<< n

/-- R11: every address parameter is a multiple of 4 and every bit-position parameter lies in 0..31. -/
def configOk (c : Config) : Bool :=
  ([c.offCr1, c.offCr2, c.offTimingr, c.offIsr, c.offTxdr, c.rccApb1Rstr, c.rccApb1Enr].all fun a => a.toNat % 4 == 0)
    && ([c.peBit, c.saddLo, c.rdWrnBit, c.add10Bit, c.head10rBit, c.startBit, c.reloadBit, c.autoendBit, c.txeBit,
      c.nackfBit].all fun n => decide (n < 32))
    && (c.instances.all fun x => x.base.toNat % 4 == 0 && decide (x.rstBit < 32) && decide (x.enBit < 32))

/-! ## Addresses: `I2C_BASE[i] + OFF_R` (R33)

DESIGN CHOICE (log 31): R11 lets a configuration through whose sum reaches 2^32, and the spec does not say what address it
is; the model adds modulo 2^32, the width of a bus address (R50). -/

/-- The address of CR1 (R33), modulo 2^32 (log 31). -/
def addrCr1 (c : Config) (x : Instance) : Word := x.base + c.offCr1
/-- The address of CR2 (R33), modulo 2^32 (log 31). -/
def addrCr2 (c : Config) (x : Instance) : Word := x.base + c.offCr2
/-- The address of TIMINGR (R33), modulo 2^32 (log 31). -/
def addrTimingr (c : Config) (x : Instance) : Word := x.base + c.offTimingr
/-- The address of ISR (R33), modulo 2^32 (log 31). -/
def addrIsr (c : Config) (x : Instance) : Word := x.base + c.offIsr
/-- The address of TXDR (R33), modulo 2^32 (log 31). -/
def addrTxdr (c : Config) (x : Instance) : Word := x.base + c.offTxdr

/-- The instance an instance code selects (R72). -/
def instanceOf (c : Config) (inst : BitVec 2) : Option Instance := c.instances[inst.toNat]?

/-! ## CR2 words (R35) -/

/-- SADD, the address field, at its position `SADD_LO` (R35, log 19). -/
def saddAt (c : Config) (sadd : Word) : Word := sadd <<< c.saddLo

/-- `cr2_base(a)`, the address-phase CR2 word (R132, log 20): 7-bit addressing up to ADDR7_MAX, 10-bit addressing
above. -/
def cr2Base (c : Config) (a : BitVec 16) : Word :=
  if a.toNat ≤ Config.addr7Max then
    saddAt c (a.setWidth 32 <<< c.sadd7Shift) ||| bitAt 0#1 c.add10Bit ||| bitAt c.head10r7 c.head10rBit
      ||| bitAt 0#1 c.rdWrnBit
  else
    saddAt c (a.setWidth 32) ||| bitAt 1#1 c.add10Bit ||| bitAt c.head10r10 c.head10rBit ||| bitAt 0#1 c.rdWrnBit

/-- The length of the segment that starts with `rem` bytes left (R134 step 1). -/
def segLen (rem : BitVec 32) : Nat := min rem.toNat Config.segMax

/-- Whether the segment that starts with `rem` bytes left is the final one (R134 step 2). -/
def segFinal (rem : BitVec 32) : Bool := decide (rem.toNat ≤ Config.segMax)

/-- The CR2 word of a segment of `seg` bytes (R134): NBYTES at bits 23:16, AUTOEND on the final segment and RELOAD on
the others, START. -/
def segWord (c : Config) (base : Word) (seg : Nat) (fin : Bool) : Word :=
  base ||| (BitVec.ofNat 32 seg <<< 16)
    ||| (if fin then bitMask c.autoendBit else bitMask c.reloadBit) ||| bitMask c.startBit

end Sys2Proof.Machine
end

