-- ==== Sys2Proof/Machine/Ops.lean ====
section
/-! DEFINITION. The named operations: register-bus accesses (20_memory.md R53 to R55), the payload read (R56), taking a
command from the port (10_state.md R28), ending a command (60_exceptions.md R173) and reset (70_reset_and_hazards.md
R190). Every operation reads the registers as they stand at the start of the step (R22). -/

namespace Sys2Proof.Machine

/-- An outcome of this machine. -/
abbrev Result := Host.Outcome State Fault Refusal

/-! ## The register bus -/

/-- The environment's answer to a read made now: the next scheduled one, or a free draw (R53, log 12). -/
def answer (s : State) : Word := s.replies.headD (Config.freeBusWord s.draws)

/-- The state once `MemRead(a, 4)` is answered: the event is recorded and the answer is used up (R53). -/
def afterRead (a : Word) (s : State) : State :=
  { s with
    replies := s.replies.tail
    draws := if s.replies.isEmpty then s.draws + 1 else s.draws
    events := s.events ++ [.rd a (answer s)] }

/-- The state once `MemWrite(a, 4, v)` is made: the event is recorded, and that is all (R54, log 24). -/
def afterWrite (a v : Word) (s : State) : State := { s with events := s.events ++ [.wr a v] }

/-- A step that makes a bus access and then stands at `t`; where the environment never completes the access there is no
successor (R55). -/
def busStep (s t : State) : Result := if s.busStall then .fault .busAccessNeverCompletes else .next t

/-- A step that needs the register block or the reset bit of the instance INST selects (R72). -/
def onInstance (s : State) (k : Instance → Result) : Result :=
  match instanceOf s.cfg s.INST with
  | some x => k x
  | none => .fault .noSuchInstance

/-! ## The payload read port -/

/-- `PayRead(i)`: byte `i` of the current payload (R56); a free value where the host supplied none (log 11,
log 28). -/
def payByte (i : BitVec 32) (s : State) : Byte := s.payload[i.toNat]?.getD (Config.freePayByte s.draws)

/-- The state once `PayRead(i)` is made: no side effect (R56), but for the model's own draw counter. -/
def afterPayRead (i : BitVec 32) (s : State) : State :=
  { s with draws := if s.payload.length ≤ i.toNat then s.draws + 1 else s.draws }

/-- The payload port's output `pay_idx` (R32). DESIGN CHOICE (log 32): it shows IDX in every state; the spec gives it a
value only where W_DATA makes its `PayRead(IDX)`. -/
def payIdx (s : State) : BitVec 32 := s.IDX

/-! ## Accepting and ending a command -/

/-- The command at the head of the port is taken; its payload stands behind the payload port until the next one is
(R28, R56, log 8, log 10). -/
def takeCommand (s : State) : State :=
  { s with
    cmdQueue := s.cmdQueue.tail
    payload := (s.cmdQueue.head?.map Command.payload).getD s.payload }

/-- Acceptance latches the descriptor's fields (R28, R110). -/
def latch (op inst grade : BitVec 2) (addr : BitVec 16) (len : BitVec 32) (s : State) : State :=
  { s with OP := op, INST := inst, GRADE := grade, ADDR := addr, LEN := len }

/-- `finish(o)`: the one shared ending of every command (R173): OUTCOME <- o, STATE <- IDLE, nothing else. Control goes
to IDLE; nothing is saved and there is no return from it (R176). -/
def finish (o : CmdOutcome) (s : State) : State := { s with OUTCOME := o, STATE := .IDLE }

/-- A step with `rst` = 1: every register takes its value of R40; the ports, the environment and the events made stand
(R190, R191, R41, log 22). -/
def resetRegs (s : State) : State :=
  { s with
    STATE := .IDLE
    OP := 0#2
    INST := 0#2
    GRADE := 0#2
    ADDR := 0#16
    LEN := 0#32
    REM := 0#32
    SEGLEFT := 0#8
    FINAL := false
    IDX := 0#32
    CR2_BASE := 0#32
    TMP := 0#32
    POLLCNT := 0#32
    OUTCOME := .NONE
    RES_TIMINGR := 0#32 }

/-- The command the host presents, as the decoder reads it; none when `cmd_valid` = 0 (R28, R75). -/
def presented (s : State) : Option Instr := s.cmdQueue.head?.map fun c => decode s.cfg.ninst c.desc

end Sys2Proof.Machine
end

