-- ==== Sys2Proof/Machine/TimingCalc.lean ====
section
/-! DEFINITION. TCALC, the timing calculator (40_timing_calc.md R100 to R104), and R204's informative periods. -/

namespace Sys2Proof.Machine

/-- The five field constants of a grade (R102). -/
structure TimingFields where
  presc : Nat
  scldel : Nat
  sdadel : Nat
  sclh : Nat
  scll : Nat
  deriving DecidableEq, Repr

/-- TCALC's outputs. -/
structure TcalcOut where
  valid : Bool
  word : Word
  deriving DecidableEq, Repr

/-- The document's table (R100, R102); the code 11 has no row. -/
def timingFields (g : BitVec 2) : Option TimingFields :=
  if g = 0#2 then some ⟨1, 2, 4, 15, 19⟩
  else if g = 1#2 then some ⟨0, 1, 3, 3, 9⟩
  else if g = 2#2 then some ⟨0, 0, 1, 3, 6⟩
  else none

/-- The timing word of the fields, at the positions of R36; bits 27:24 are 0 (R100). -/
def timingWord (f : TimingFields) : Word :=
  (BitVec.ofNat 32 f.presc <<< 28) ||| (BitVec.ofNat 32 f.scldel <<< 20) ||| (BitVec.ofNat 32 f.sdadel <<< 16)
    ||| (BitVec.ofNat 32 f.sclh <<< 8) ||| BitVec.ofNat 32 f.scll

/-- `tcalc(g)` (R100). -/
def tcalc (g : BitVec 2) : TcalcOut :=
  match timingFields g with
  | some f => ⟨true, timingWord f⟩
  | none => ⟨false, 0#32⟩

/-- The calculator port's output `calc_timingr` (R30, R101). -/
def calcTimingr (s : State) : Word := (tcalc s.calcGrade).word

/-- The calculator port's output `calc_valid` (R25, R30, R101). -/
def calcValid (s : State) : Bool := (tcalc s.calcGrade).valid

/-! ## Informative periods in nanoseconds (R204, log 27); nothing depends on them. -/

/-- `t_PRESC = (PRESC + 1) / F_I2CCLK`. -/
def periodPresc (f : TimingFields) : Nat := (f.presc + 1) * (1000000000 / Config.fI2cClk)
/-- `t_SCLL = (SCLL + 1) * t_PRESC`. -/
def periodScll (f : TimingFields) : Nat := (f.scll + 1) * periodPresc f
/-- `t_SCLH = (SCLH + 1) * t_PRESC`. -/
def periodSclh (f : TimingFields) : Nat := (f.sclh + 1) * periodPresc f
/-- `t_SCLDEL = (SCLDEL + 1) * t_PRESC`. -/
def periodScldel (f : TimingFields) : Nat := (f.scldel + 1) * periodPresc f
/-- `t_SDADEL = SDADEL * t_PRESC`. -/
def periodSdadel (f : TimingFields) : Nat := f.sdadel * periodPresc f

end Sys2Proof.Machine
end

