-- ==== Sys2Proof/Machine/InitSeq.lean ====
section
/-! DEFINITION. The rules of INIT's busy states (40_timing_calc.md R113 to R120), one definition per state. -/

namespace Sys2Proof.Machine

/-- I_RST_RD1 (R113). -/
def stepIRstRd1 (s : State) : Result :=
  busStep s { afterRead s.cfg.rccApb1Rstr s with TMP := answer s, STATE := .I_RST_SET }

/-- I_RST_SET (R114): the instance's reset bit is set in the word read. -/
def stepIRstSet (s : State) : Result :=
  onInstance s fun x =>
    busStep s { afterWrite s.cfg.rccApb1Rstr (s.TMP ||| bitMask x.rstBit) s with STATE := .I_RST_RD2 }

/-- I_RST_RD2 (R115). -/
def stepIRstRd2 (s : State) : Result :=
  busStep s { afterRead s.cfg.rccApb1Rstr s with TMP := answer s, STATE := .I_RST_CLR }

/-- I_RST_CLR (R116): the instance's reset bit is cleared in the word read; the timing register is read first only with
LEGACY_OR_LOAD. -/
def stepIRstClr (s : State) : Result :=
  onInstance s fun x =>
    busStep s
      { afterWrite s.cfg.rccApb1Rstr (s.TMP &&& ~~~bitMask x.rstBit) s with
        STATE := if s.cfg.legacyOrLoad then .I_TIM_RD else .I_TIM_WR }

/-- I_TIM_RD (R117). -/
def stepITimRd (s : State) : Result :=
  onInstance s fun x =>
    busStep s { afterRead (addrTimingr s.cfg x) s with TMP := answer s, STATE := .I_TIM_WR }

/-- The word INIT loads into TIMINGR: whole, or ORed into the word read with LEGACY_OR_LOAD (R118). -/
def timingLoad (s : State) : Word :=
  if s.cfg.legacyOrLoad then s.TMP ||| (tcalc s.GRADE).word else (tcalc s.GRADE).word

/-- I_TIM_WR (R118). -/
def stepITimWr (s : State) : Result :=
  onInstance s fun x =>
    busStep s
      { afterWrite (addrTimingr s.cfg x) (timingLoad s) s with RES_TIMINGR := timingLoad s, STATE := .I_PE_RD }

/-- I_PE_RD (R119). -/
def stepIPeRd (s : State) : Result :=
  onInstance s fun x => busStep s { afterRead (addrCr1 s.cfg x) s with TMP := answer s, STATE := .I_PE_WR }

/-- I_PE_WR (R120). -/
def stepIPeWr (s : State) : Result :=
  onInstance s fun x =>
    busStep s (finish .COMPLETE (afterWrite (addrCr1 s.cfg x) (s.TMP ||| bitMask s.cfg.peBit) s))

end Sys2Proof.Machine
end

