-- ==== Sys2Proof/Machine/WriteSeq.lean ====
section
/-! DEFINITION. The rules of WRITE's busy states (41_write_sequencer.md R133, R134, R136, R137, R139), one definition per
state. -/

namespace Sys2Proof.Machine

/-- W_ADDR (R133). -/
def stepWAddr (s : State) : Result :=
  onInstance s fun x => busStep s { afterWrite (addrCr2 s.cfg x) s.CR2_BASE s with STATE := .W_SEG }

/-- What W_SEG does to the registers once its CR2 write is made (R134). -/
def segStart (s : State) : State :=
  { s with
    FINAL := segFinal s.REM
    SEGLEFT := BitVec.ofNat 8 (segLen s.REM)
    REM := s.REM - BitVec.ofNat 32 (segLen s.REM) }

/-- W_SEG (R134): a segment of no byte, only with LEN = 0, ends the command. -/
def stepWSeg (s : State) : Result :=
  onInstance s fun x =>
    let t := segStart (afterWrite (addrCr2 s.cfg x) (segWord s.cfg s.CR2_BASE (segLen s.REM) (segFinal s.REM)) s)
    busStep s (if segLen s.REM = 0 then finish .COMPLETE t else { t with STATE := .W_NACK })

/-- W_NACK (R136): one read; NACKF = 1 aborts; TXE is ignored. -/
def stepWNack (s : State) : Result :=
  onInstance s fun x =>
    let t := afterRead (addrIsr s.cfg x) s
    busStep s
      (if nackfOf s.cfg (answer s) then finish .ABORTED_NACK t else { t with POLLCNT := 0#32, STATE := .W_TXE })

/-- W_TXE (R137): TXE = 1 goes on, before any TIMEOUT (R175); NACKF is ignored. -/
def stepWTxe (s : State) : Result :=
  onInstance s fun x =>
    let t := afterRead (addrIsr s.cfg x) s
    busStep s
      (if txeOf s.cfg (answer s) then { t with STATE := .W_DATA }
       else if pollExpired s.cfg s.POLLCNT then finish .TIMEOUT t
       else { t with POLLCNT := pollNext s.POLLCNT, STATE := .W_TXE })

/-- W_DATA (R139): the byte at IDX goes to TXDR, zero-extended; the counters move; the segment or the command may be
done. The decrement wraps only in states no run reaches (log 17). -/
def stepWData (s : State) : Result :=
  onInstance s fun x =>
    let t := afterWrite (addrTxdr s.cfg x) ((payByte s.IDX s).setWidth 32) (afterPayRead s.IDX s)
    let u := { t with IDX := s.IDX + 1#32, SEGLEFT := s.SEGLEFT - 1#8 }
    busStep s
      (if s.SEGLEFT - 1#8 ≠ 0#8 then { u with STATE := .W_NACK }
       else if s.FINAL then finish .COMPLETE u
       else { u with STATE := .W_SEG })

end Sys2Proof.Machine
end

