-- ==== Sys2Proof/Machine/Sequencer.lean ====
section
/-! DEFINITION. TSEQ: the step of the state STATE holds (10_state.md R24), and what a step does with the command that is
presented (R28). -/

namespace Sys2Proof.Machine

/-- The rule of the state STATE holds. IDLE makes no step on its own: nothing changes (R24, R110, log 15). -/
def sequencerStep (s : State) : Result :=
  match s.STATE with
  | .IDLE => .next s
  | .I_RST_RD1 => stepIRstRd1 s
  | .I_RST_SET => stepIRstSet s
  | .I_RST_RD2 => stepIRstRd2 s
  | .I_RST_CLR => stepIRstClr s
  | .I_TIM_RD => stepITimRd s
  | .I_TIM_WR => stepITimWr s
  | .I_PE_RD => stepIPeRd s
  | .I_PE_WR => stepIPeWr s
  | .W_ADDR => stepWAddr s
  | .W_SEG => stepWSeg s
  | .W_NACK => stepWNack s
  | .W_TXE => stepWTxe s
  | .W_DATA => stepWData s

/-- A step in which a command is presented. In IDLE it is accepted and dispatched, with no bus access (R28, R110). While
BUSY the port is not read: the running command makes its step (R28, R176, log 16). -/
def present (s : State) (dispatch : State → State) : Result :=
  if s.STATE = .IDLE then .next (dispatch (takeCommand s)) else sequencerStep s

end Sys2Proof.Machine
end

