-- ==== Sys2Proof/Machine/Commands.lean ====
section
/-! DEFINITION. The meanings of the four opcode-table rows: the dispatch step of each (40_timing_calc.md R110). What
follows the dispatch of INIT and WRITE is the FSM's (Sequencer.lean). A term no decoder yields (log 21) is the reserved
descriptor its words are. -/

namespace Sys2Proof.Machine

/-- CALC in its dispatch step (R111). -/
def dispatchCalc (g : Grade) (s : State) : State :=
  finish .COMPLETE { latch 0#2 0#2 (gradeCode g) 0#16 0#32 s with RES_TIMINGR := (tcalc (gradeCode g)).word }

/-- INIT in its dispatch step (R112). -/
def dispatchInit (inst : BitVec 2) (g : Grade) (s : State) : State :=
  if instOk s.cfg.ninst inst then { latch 1#2 inst (gradeCode g) 0#16 0#32 s with STATE := .I_RST_RD1 }
  else finish .INVALID_COMMAND (latch 1#2 inst (gradeCode g) 0#16 0#32 s)

/-- WRITE in its dispatch step (R130, R131). -/
def dispatchWrite (inst : BitVec 2) (addr : BitVec 16) (len : BitVec 32) (s : State) : State :=
  let t := latch 2#2 inst 0#2 addr len s
  if instOk s.cfg.ninst inst then
    if Config.addr10Max < addr.toNat then finish .INVALID_ADDRESS t
    else { t with CR2_BASE := cr2Base s.cfg addr, REM := len, IDX := 0#32, STATE := .W_ADDR }
  else finish .INVALID_COMMAND t

/-- A reserved descriptor in its dispatch step (R78, R110). -/
def dispatchReserved (d : Desc) (s : State) : State :=
  finish .INVALID_COMMAND (latch (descOp d) (descInst d) (descGrade d) (descAddr d) (descLen d) s)

/-- CALC (R111). -/
def execCalc (g : Grade) (s : State) : Result := present s (dispatchCalc g)

/-- INIT (R112). -/
def execInit (inst : BitVec 2) (g : Grade) (s : State) : Result := present s (dispatchInit inst g)

/-- WRITE (R130). -/
def execWrite (inst : BitVec 2) (addr : BitVec 16) (len : BitVec 32) (s : State) : Result :=
  present s (dispatchWrite inst addr len)

/-- RESERVED (R78). -/
def execReserved (d : Desc) (s : State) : Result := present s (dispatchReserved d)

end Sys2Proof.Machine
end

