-- ==== Sys2Proof/Machine/Dispatch.lean ====
section
/-! DEFINITION. One arm per command (30_encoding.md R77): a step in which that command is presented. -/

namespace Sys2Proof.Machine

def exec (i : Instr) (s : State) : Host.Outcome State Fault Refusal :=
  match i with
  | .calculate g => Sys2Proof.Machine.execCalc g s
  | .init inst g => Sys2Proof.Machine.execInit inst g s
  | .write inst addr len => Sys2Proof.Machine.execWrite inst addr len s
  | .reserved d => Sys2Proof.Machine.execReserved d s

end Sys2Proof.Machine
end

