-- ==== Sys2Proof/Machine/Step.lean ====
section
/-! DEFINITION. One step of the block. -/

namespace Sys2Proof.Machine

/-- One step. Parameters that break R11 are refused before any run (log 6); `rst` = 1 performs no rule of any state and
resets the registers (R190, R175); a presented command goes to exec (R28); with none, the FSM makes the step of its
state (R24). -/
def step (s : State) : Host.Outcome State Fault Refusal :=
  if configOk s.cfg then
    if s.rst then .next (resetRegs s)
    else
      match presented s with
      | some i => exec i s
      | none => sequencerStep s
  else .refused .configSpellsNoBlock

/-- `s` with the descriptor `w` presented on the command port so that the very next step accepts it: it is the head of
the port, the block is in IDLE and `rst` is 0 (R28, log 9). -/
def State.withFetchWord (s : State) (nbits w : Nat) : State :=
  { s with
    cmdQueue := ⟨BitVec.ofNat 64 (w % 2 ^ nbits), []⟩ :: s.cmdQueue
    STATE := .IDLE
    rst := false }

end Sys2Proof.Machine
end

