-- ==== Sys2Proof/Machine/Assembler.lean ====
section
/-! DEFINITION. The assembler of 30_encoding.md R80 and its pseudo-command SEND (R81): from lines of text to the
commands a host presents. Not part of the block: no step calls it. -/

namespace Sys2Proof.Machine

/-- A line, its operands read but not yet checked (R80, R81). -/
inductive AsmLine where
  | calculate (g : Grade)
  | init (inst : Nat) (g : Grade)
  | write (inst addr len : Nat)
  /-- `PAYLOAD <b0>, <b1>, ...`. -/
  | payload (bytes : List Nat)
  /-- `PAYLOAD <len> x <b>`. -/
  | payloadRep (len byte : Nat)
  | send (inst addr : Nat) (bytes : List Nat)
  deriving DecidableEq, Repr

/-! ## Reading a line -/

/-- Put a finished token, kept reversed while it is read, before the tokens that follow. -/
def flushToken (acc : List Char) (rest : List (List Char)) : List (List Char) :=
  if acc.isEmpty then rest else acc.reverse :: rest

/-- Tokens: blanks separate, a comma is a token of its own (log 25). -/
def tokensFrom : List Char → List Char → List (List Char)
  | [], acc => flushToken acc []
  | c :: cs, acc =>
    if c = ' ' ∨ c = '\t' then flushToken acc (tokensFrom cs [])
    else if c = ',' then flushToken acc ([','] :: tokensFrom cs [])
    else tokensFrom cs (c :: acc)

/-- The value of a digit in the given base, 10 or 16. -/
def digitValue (base : Nat) (c : Char) : Option Nat :=
  let n := c.toNat
  let v := if '0'.toNat ≤ n ∧ n ≤ '9'.toNat then some (n - '0'.toNat)
    else if 'a'.toNat ≤ n ∧ n ≤ 'f'.toNat then some (n - 'a'.toNat + 10)
    else if 'A'.toNat ≤ n ∧ n ≤ 'F'.toNat then some (n - 'A'.toNat + 10)
    else none
  v.filter fun d => decide (d < base)

/-- The number the digits spell after `acc`. -/
def digitsValue (base : Nat) : List Char → Nat → Option Nat
  | [], acc => some acc
  | c :: cs, acc => (digitValue base c).bind fun d => digitsValue base cs (acc * base + d)

/-- A number in decimal or `0x` hexadecimal (R80). -/
def asmNumber : List Char → Option Nat
  | [] => none
  | ['0', 'x'] => none
  | '0' :: 'x' :: ds => digitsValue 16 ds 0
  | ds => digitsValue 10 ds 0

/-- `STD`, `FAST`, `FASTPLUS` (R80). -/
def asmGrade (t : List Char) : Option Grade :=
  if t = ['S', 'T', 'D'] then some .std
  else if t = ['F', 'A', 'S', 'T'] then some .fast
  else if t = ['F', 'A', 'S', 'T', 'P', 'L', 'U', 'S'] then some .fastPlus
  else none

/-- `I2C1`, `I2C2`, `I2C3` (R80). -/
def asmInst (t : List Char) : Option Nat :=
  if t = ['I', '2', 'C', '1'] then some 0
  else if t = ['I', '2', 'C', '2'] then some 1
  else if t = ['I', '2', 'C', '3'] then some 2
  else none

/-- Numbers separated by commas; no token at all is the empty list. -/
def asmBytes : List (List Char) → Option (List Nat)
  | [] => some []
  | [t] => (asmNumber t).map fun b => [b]
  | t :: [','] :: u :: ts => do
    let b ← asmNumber t
    let bs ← asmBytes (u :: ts)
    return b :: bs
  | _ => none

/-- The operands after `PAYLOAD`: a repeated byte, or a list (R80). -/
def asmPayload : List (List Char) → Option AsmLine
  | [n, ['x'], b] => do return .payloadRep (← asmNumber n) (← asmNumber b)
  | ts => (asmBytes ts).map .payload

/-- A line (R80, R81). -/
def asmLine (line : List Char) : Option AsmLine :=
  match tokensFrom line [] with
  | [op, g] =>
    if op = ['C', 'A', 'L', 'C'] then (asmGrade g).map .calculate
    else if op = ['P', 'A', 'Y', 'L', 'O', 'A', 'D'] then asmPayload [g]
    else none
  | [op, a, [','], b] =>
    if op = ['I', 'N', 'I', 'T'] then do return .init (← asmInst a) (← asmGrade b)
    else if op = ['S', 'E', 'N', 'D'] then do return .send (← asmInst a) (← asmNumber b) []
    else if op = ['P', 'A', 'Y', 'L', 'O', 'A', 'D'] then asmPayload [a, [','], b]
    else none
  | op :: a :: [','] :: b :: [','] :: ts =>
    if op = ['W', 'R', 'I', 'T', 'E'] then
      match ts with
      | [n] => do return .write (← asmInst a) (← asmNumber b) (← asmNumber n)
      | _ => none
    else if op = ['S', 'E', 'N', 'D'] then
      match ts with
      | [] => none
      | _ => do return .send (← asmInst a) (← asmNumber b) (← asmBytes ts)
    else if op = ['P', 'A', 'Y', 'L', 'O', 'A', 'D'] then asmPayload (a :: [','] :: b :: [','] :: ts)
    else none
  | op :: ts => if op = ['P', 'A', 'Y', 'L', 'O', 'A', 'D'] then asmPayload ts else none
  | [] => none

/-! ## From lines to commands -/

/-- SEND expands to WRITE and PAYLOAD (R81). -/
def asmExpand : AsmLine → List AsmLine
  | .send inst addr bytes => [.write inst addr bytes.length, .payload bytes]
  | l => [l]

/-- The command of a CALC line. -/
def asmCalc (g : Grade) : Command := ⟨encode (.calculate g), []⟩

/-- The command of an INIT line; an operand that names no instance is refused (R80). -/
def asmInit (ninst inst : Nat) (g : Grade) : Option Command :=
  if inst < ninst ∧ inst < 4 then some ⟨encode (.init (BitVec.ofNat 2 inst) g), []⟩ else none

/-- The command of a WRITE line with its payload: exactly `len` bytes, every operand in range (R80). -/
def asmWrite (ninst inst addr len : Nat) (bytes : List Nat) : Option Command :=
  if inst < ninst ∧ inst < 4 ∧ addr < 65536 ∧ len < 2 ^ 32 ∧ bytes.length = len ∧ (bytes.all fun b => decide (b < 256))
  then some ⟨encode (.write (BitVec.ofNat 2 inst) (BitVec.ofNat 16 addr) (BitVec.ofNat 32 len)),
    bytes.map (BitVec.ofNat 8)⟩
  else none

/-- The commands of expanded lines. A repeated byte out of range is refused even where it is repeated 0 times (R80). A WRITE of no byte may stand without its PAYLOAD line (log 25). -/
def asmCommands (ninst : Nat) : List AsmLine → Option (List Command)
  | [] => some []
  | .calculate g :: ls => do return asmCalc g :: (← asmCommands ninst ls)
  | .init inst g :: ls => do return (← asmInit ninst inst g) :: (← asmCommands ninst ls)
  | .write inst addr len :: .payload bytes :: ls => do
    return (← asmWrite ninst inst addr len bytes) :: (← asmCommands ninst ls)
  | .write inst addr len :: .payloadRep n b :: ls =>
    if n = len ∧ b < 256 then do
      return (← asmWrite ninst inst addr len (List.replicate n b)) :: (← asmCommands ninst ls)
    else none
  | .write inst addr 0 :: ls => do return (← asmWrite ninst inst addr 0 []) :: (← asmCommands ninst ls)
  | _ => none

/-- The commands of a text: its lines read, SEND expanded, the operands checked (R80, R81). -/
def assemble (ninst : Nat) (lines : List (List Char)) : Option (List Command) := do
  let ls ← lines.mapM asmLine
  asmCommands ninst (ls.flatMap asmExpand)

end Sys2Proof.Machine
end

