-- ==== Sys2Proof/Safety.lean ====
section
/-! DEFINITION. The terms claims are stated in: the states a run can reach, and the bus events the spec gives a whole
INIT and a whole WRITE. -/

namespace Sys2Proof.Safety

open Sys2Proof.Machine

/-! ## The states a run can reach -/

/-- The busy states of INIT (R112). -/
def inInit : FsmState → Bool
  | .I_RST_RD1 | .I_RST_SET | .I_RST_RD2 | .I_RST_CLR | .I_TIM_RD | .I_TIM_WR | .I_PE_RD | .I_PE_WR => true
  | .IDLE | .W_ADDR | .W_SEG | .W_NACK | .W_TXE | .W_DATA => false

/-- The busy states of WRITE (R130). -/
def inWrite : FsmState → Bool
  | .W_ADDR | .W_SEG | .W_NACK | .W_TXE | .W_DATA => true
  | .IDLE | .I_RST_RD1 | .I_RST_SET | .I_RST_RD2 | .I_RST_CLR | .I_TIM_RD | .I_TIM_WR | .I_PE_RD | .I_PE_WR => false

/-- The states of WRITE inside a segment. -/
def inSegment : FsmState → Bool
  | .W_NACK | .W_TXE | .W_DATA => true
  | .IDLE | .I_RST_RD1 | .I_RST_SET | .I_RST_RD2 | .I_RST_CLR | .I_TIM_RD | .I_TIM_WR | .I_PE_RD | .I_PE_WR
  | .W_ADDR | .W_SEG => false

/-- The invariant of the sequencer: the parameters are a block's (R11), a running command has legal operands (R75,
R131), and the widths and ranges of R145 hold. -/
structure SeqInv (s : State) : Prop where
  config : configOk s.cfg = true
  instance_named : s.STATE ≠ .IDLE → s.INST.toNat < s.cfg.ninst
  init_operands : inInit s.STATE = true → s.OP = 1#2 ∧ s.GRADE ≠ 3#2
  legacy_read : s.STATE = .I_TIM_RD → s.cfg.legacyOrLoad = true
  write_operands : inWrite s.STATE = true → s.OP = 2#2 ∧ s.ADDR.toNat ≤ 1023 ∧ s.CR2_BASE = cr2Base s.cfg s.ADDR
  write_start : s.STATE = .W_ADDR → s.REM = s.LEN ∧ s.IDX = 0#32
  segment_start : s.STATE = .W_SEG →
    s.IDX.toNat + s.REM.toNat = s.LEN.toNat ∧ (s.REM = 0#32 → s.LEN = 0#32)
  segment_bytes : inSegment s.STATE = true →
    s.IDX.toNat + s.SEGLEFT.toNat + s.REM.toNat = s.LEN.toNat ∧ s.SEGLEFT ≠ 0#8 ∧ (s.FINAL = true ↔ s.REM = 0#32)
  poll_below_limit : s.cfg.pollLimit ≠ 0#32 → s.POLLCNT.toNat < s.cfg.pollLimit.toNat

/-- The bus is live and reset is not asserted: nothing outside the block stops its next step (R55, R190). -/
def Undisturbed (s : State) : Prop := s.busStall = false ∧ s.rst = false

/-- `k` steps of the machine, as the host runs it. -/
def run (k : Nat) (s : State) : Result := Sys2Proof.core.run k s

/-! ## Bus events of whole commands -/

/-- The bus events of an INIT of instance `x` and the grade code `g`, with LEGACY_OR_LOAD = false, whose reads are
answered r1, r2, r4 (R121). -/
def initEvents (c : Config) (x : Instance) (g : BitVec 2) (r1 r2 r4 : Word) : List BusEvent :=
  [.rd c.rccApb1Rstr r1, .wr c.rccApb1Rstr (r1 ||| (1#32 <<< x.rstBit)),
   .rd c.rccApb1Rstr r2, .wr c.rccApb1Rstr (r2 &&& ~~~(1#32 <<< x.rstBit)),
   .wr (x.base + c.offTimingr) (tcalc g).word,
   .rd (x.base + c.offCr1) r4, .wr (x.base + c.offCr1) (r4 ||| (1#32 <<< c.peBit))]

/-- The same with LEGACY_OR_LOAD = true, TIMINGR's read answered r3 (R121). -/
def initEventsLegacy (c : Config) (x : Instance) (g : BitVec 2) (r1 r2 r3 r4 : Word) : List BusEvent :=
  [.rd c.rccApb1Rstr r1, .wr c.rccApb1Rstr (r1 ||| (1#32 <<< x.rstBit)),
   .rd c.rccApb1Rstr r2, .wr c.rccApb1Rstr (r2 &&& ~~~(1#32 <<< x.rstBit)),
   .rd (x.base + c.offTimingr) r3, .wr (x.base + c.offTimingr) (r3 ||| (tcalc g).word),
   .rd (x.base + c.offCr1) r4, .wr (x.base + c.offCr1) (r4 ||| (1#32 <<< c.peBit))]

/-- The number of segments of `n` bytes (R144). -/
def nseg (n : Nat) : Nat := if n = 0 then 1 else (n + 254) / 255

/-- What the environment does with one payload byte: the answer to its NACK check, the TXE = 0 answers of its wait, and
the TXE = 1 answer that ends it (R136, R137). -/
structure ByteRun where
  byte : Byte
  nack : Word
  waits : List Word
  ready : Word

/-- The byte is sent: the NACK check sees none, the wait ends with TXE = 1 and does not reach POLL_LIMIT (R136 to
R138). -/
def ByteRun.Sent (c : Config) (b : ByteRun) : Prop :=
  nackfOf c b.nack = false ∧ (∀ w ∈ b.waits, txeOf c w = false) ∧ txeOf c b.ready = true
    ∧ (c.pollLimit = 0#32 ∨ b.waits.length < c.pollLimit.toNat)

/-- The answers of a byte, in the order they are read. -/
def ByteRun.answers (b : ByteRun) : List Word := b.nack :: (b.waits ++ [b.ready])

/-- The bus events of a byte that is sent (R147). -/
def ByteRun.events (c : Config) (x : Instance) (b : ByteRun) : List BusEvent :=
  (b.answers.map fun r => .rd (x.base + c.offIsr) r) ++ [.wr (x.base + c.offTxdr) (b.byte.setWidth 32)]

/-- The segment word written just before byte `j` of `n`: one before every 255th byte, for the bytes left, at most 255,
RELOAD unless they are the last (R134). -/
def segmentEvent (c : Config) (x : Instance) (base : Word) (n j : Nat) : List BusEvent :=
  if j % 255 = 0 then [.wr (x.base + c.offCr2) (segWord c base (min (n - j) 255) (decide (n - j ≤ 255)))] else []

/-- The bus events of the bytes from the `j`-th of `n` on, segment words included (R147). -/
def bytesEvents (c : Config) (x : Instance) (base : Word) (n : Nat) : Nat → List ByteRun → List BusEvent
  | _, [] => []
  | j, b :: bs => segmentEvent c x base n j ++ b.events c x ++ bytesEvents c x base n (j + 1) bs

/-- The bus events of a whole WRITE that completes (R147); a zero-length one writes its one segment word (R134). -/
def writeEvents (c : Config) (x : Instance) (base : Word) (bs : List ByteRun) : List BusEvent :=
  .wr (x.base + c.offCr2) base ::
    (if bs = [] then segmentEvent c x base 0 0 else bytesEvents c x base bs.length 0 bs)

/-- From `s` the command WRITE `i`, `a`, `n` is one that completes: the block is in IDLE and undisturbed, the instance code
is that of `x`, the address is valid, the payload is `bs`, LEN bytes of it (R182), and the environment's coming answers
send every byte. -/
structure WriteSends (s : State) (i : BitVec 2) (a : BitVec 16) (n : BitVec 32) (x : Instance) (bs : List ByteRun)
    (rest : List Word) : Prop where
  idle : s.STATE = .IDLE
  undisturbed : Undisturbed s
  config : configOk s.cfg = true
  instance_named : instanceOf s.cfg i = some x
  address : a.toNat ≤ 1023
  length : n.toNat = bs.length
  payload : (takeCommand s).payload = bs.map ByteRun.byte
  answers : s.replies = bs.flatMap ByteRun.answers ++ rest
  sent : ∀ b ∈ bs, b.Sent s.cfg

/-- The steps of such a WRITE after its dispatch: one for each bus event of R147, and one for each extra TXE = 0
answer. -/
def writeSteps (bs : List ByteRun) : Nat :=
  1 + nseg bs.length + 3 * bs.length + (bs.map fun b => b.waits.length).sum

/-- The address an event is at. -/
def eventAddr : BusEvent → Word
  | .rd a _ => a
  | .wr a _ => a

/-- The words written at an address, in order. -/
def writesAt (a : Word) (es : List BusEvent) : List Word :=
  es.filterMap fun e => match e with
    | .wr b v => if b = a then some v else none
    | .rd _ _ => none

end Sys2Proof.Safety
end

