-- ==== Sys2Proof/Certificates/Slice0/Obligations.lean ====
section
/-! DEFINITION. The statements for the provers, file by file through the numbered rules of spec/. -/

open Sys2Proof Sys2Proof.Machine Sys2Proof.Safety

/-! ## 30_encoding.md -/

/-- R82: the descriptors of the table, `NINST` = 3, decode to the commands they stand for. -/
def Obligations.SpecDescriptorsDecode : Prop :=
  decode 3 0x0000000000000000#64 = .calculate .std ∧
  decode 3 0x0400000000000000#64 = .calculate .fast ∧
  decode 3 0x0800000000000000#64 = .calculate .fastPlus ∧
  decode 3 0x4000000000000000#64 = .init 0#2 .std ∧
  decode 3 0x4400000000000000#64 = .init 0#2 .fast ∧
  decode 3 0x5400000000000000#64 = .init 1#2 .fast ∧
  decode 3 0x6800000000000000#64 = .init 2#2 .fastPlus ∧
  decode 3 0x8000005000000001#64 = .write 0#2 0x50#16 1#32 ∧
  decode 3 0x800000500000012C#64 = .write 0#2 0x50#16 300#32 ∧
  decode 3 0x8000007F00000000#64 = .write 0#2 0x7F#16 0#32 ∧
  decode 3 0x8000007F00000001#64 = .write 0#2 0x7F#16 1#32 ∧
  decode 3 0x8000008000000001#64 = .write 0#2 0x80#16 1#32 ∧
  decode 3 0x900003FF00000002#64 = .write 1#2 0x3FF#16 2#32 ∧
  decode 3 0x8000040000000005#64 = .write 0#2 0x400#16 5#32 ∧
  decode 3 0xC000000000000000#64 = .reserved 0xC000000000000000#64 ∧
  decode 3 0x7000000000000000#64 = .reserved 0x7000000000000000#64 ∧
  decode 3 0x0C00000000000000#64 = .reserved 0x0C00000000000000#64 ∧
  decode 3 0x8400005000000001#64 = .reserved 0x8400005000000001#64 ∧
  decode 3 0x0001000000000000#64 = .reserved 0x0001000000000000#64

/-- R70, R75: decoding the descriptor of a well-formed command gives it back, whatever `NINST` is. -/
def Obligations.DecodeEncodeAgree : Prop :=
  ∀ (ninst : Nat) (i : Instr), i.wf ninst = true → decode ninst (encode i) = i

/-- R70, R75: every descriptor has one reading: what it decodes to is well-formed and encodes to the same 64 bits. -/
def Obligations.EncodeDecodeAgree : Prop :=
  ∀ (ninst : Nat) (d : Desc), (decode ninst d).wf ninst = true ∧ encode (decode ninst d) = d

/-- R75: `decode(cmd)`, command by command, in the bits of the descriptor; whatever is none of the three is INVALID. -/
def Obligations.DecodeIsTheSpecsDecode : Prop :=
  ∀ (ninst : Nat) (d : Desc),
    (∀ g, decode ninst d = .calculate g ↔
      d.extractLsb' 62 2 = 0b00#2 ∧ d.extractLsb' 48 10 = 0#10 ∧ d.extractLsb' 60 2 = 0#2 ∧ d.extractLsb' 0 48 = 0#48
        ∧ d.extractLsb' 58 2 = (match g with | .std => 0b00#2 | .fast => 0b01#2 | .fastPlus => 0b10#2)) ∧
    (∀ i g, decode ninst d = .init i g ↔
      d.extractLsb' 62 2 = 0b01#2 ∧ d.extractLsb' 48 10 = 0#10 ∧ d.extractLsb' 0 48 = 0#48
        ∧ i = d.extractLsb' 60 2 ∧ i.toNat < ninst
        ∧ d.extractLsb' 58 2 = (match g with | .std => 0b00#2 | .fast => 0b01#2 | .fastPlus => 0b10#2)) ∧
    (∀ i a n, decode ninst d = .write i a n ↔
      d.extractLsb' 62 2 = 0b10#2 ∧ d.extractLsb' 48 10 = 0#10 ∧ d.extractLsb' 58 2 = 0#2
        ∧ i = d.extractLsb' 60 2 ∧ i.toNat < ninst ∧ a = d.extractLsb' 32 16 ∧ n = d.extractLsb' 0 32) ∧
    (∀ d', decode ninst d = .reserved d' → d' = d)

/-- R77: the match and mask of each command's row, with the further constraints. -/
def Obligations.OpcodeTableRows : Prop :=
  ∀ (ninst : Nat) (d : Desc),
    ((∃ g, decode ninst d = .calculate g) ↔
      d &&& 0xF3FFFFFFFFFFFFFF#64 = 0x0000000000000000#64 ∧ d.extractLsb' 58 2 ≠ 0b11#2) ∧
    ((∃ i g, decode ninst d = .init i g) ↔
      d &&& 0xC3FFFFFFFFFFFFFF#64 = 0x4000000000000000#64 ∧ (d.extractLsb' 60 2).toNat < ninst
        ∧ d.extractLsb' 58 2 ≠ 0b11#2) ∧
    ((∃ i a n, decode ninst d = .write i a n) ↔
      d &&& 0xCFFF000000000000#64 = 0x8000000000000000#64 ∧ (d.extractLsb' 60 2).toNat < ninst)

/-- R78: the reserved descriptors are exactly those of the list. -/
def Obligations.ReservedDescriptorsListed : Prop :=
  ∀ (ninst : Nat) (d : Desc), decode ninst d = .reserved d ↔
    d.extractLsb' 62 2 = 0b11#2 ∨ d.extractLsb' 48 10 ≠ 0#10
    ∨ (d.extractLsb' 62 2 = 0b00#2 ∧ (d.extractLsb' 60 2 ≠ 0#2 ∨ d.extractLsb' 0 48 ≠ 0#48 ∨ d.extractLsb' 58 2 = 0b11#2))
    ∨ (d.extractLsb' 62 2 = 0b01#2
        ∧ (d.extractLsb' 0 48 ≠ 0#48 ∨ ninst ≤ (d.extractLsb' 60 2).toNat ∨ d.extractLsb' 58 2 = 0b11#2))
    ∨ (d.extractLsb' 62 2 = 0b10#2 ∧ (d.extractLsb' 58 2 ≠ 0#2 ∨ ninst ≤ (d.extractLsb' 60 2).toNat))

/-- R80: "it never emits a reserved descriptor", and every WRITE it emits carries exactly LEN bytes. -/
def Obligations.AssemblerEmitsNoReserved : Prop :=
  ∀ (ninst : Nat) (lines : List (List Char)) (cs : List Command), assemble ninst lines = some cs →
    ∀ c ∈ cs, (∀ d, decode ninst c.desc ≠ .reserved d)
      ∧ ∀ i a n, decode ninst c.desc = .write i a n → c.payload.length = n.toNat

/-- R81: a SEND line means the WRITE line and the PAYLOAD line it expands to, wherever it stands in a text. -/
def Obligations.SendExpands : Prop :=
  ∀ (ninst inst addr : Nat) (bytes : List Nat) (before after : List AsmLine),
    asmCommands ninst ((before ++ .send inst addr bytes :: after).flatMap asmExpand)
      = asmCommands ninst ((before ++ .write inst addr bytes.length :: .payload bytes :: after).flatMap asmExpand)

/-! ## 40_timing_calc.md: the calculator -/

/-- R100: the words of the three grades, and the reserved code's answer. -/
def Obligations.TcalcWords : Prop :=
  tcalc 0b00#2 = ⟨true, 0x10240F13#32⟩ ∧ tcalc 0b01#2 = ⟨true, 0x00130309#32⟩ ∧ tcalc 0b10#2 = ⟨true, 0x00010306#32⟩
    ∧ tcalc 0b11#2 = ⟨false, 0x00000000#32⟩

/-- R102, R103: the five fields of each grade's word stand where R36 puts them with the table's values, and bits 27:24 are
0. -/
def Obligations.TimingFieldsOfTheTable : Prop :=
  ∀ (g : BitVec 2) (presc scldel sdadel sclh scll : Nat),
    (g, presc, scldel, sdadel, sclh, scll) ∈ [(0b00#2, 1, 2, 4, 15, 19), (0b01#2, 0, 1, 3, 3, 9), (0b10#2, 0, 0, 1, 3, 6)] →
    ((tcalc g).word.extractLsb' 28 4).toNat = presc ∧ ((tcalc g).word.extractLsb' 20 4).toNat = scldel
      ∧ ((tcalc g).word.extractLsb' 16 4).toNat = sdadel ∧ ((tcalc g).word.extractLsb' 8 8).toNat = sclh
      ∧ ((tcalc g).word.extractLsb' 0 8).toNat = scll ∧ (tcalc g).word.extractLsb' 24 4 = 0#4

/-- R101: the calculator port is combinational from `calc_grade` alone, and no step, a reset step included, disturbs
it. -/
def Obligations.CalculatorPortCombinational : Prop :=
  (∀ s : State, calcValid s = (s.calcGrade != 0b11#2) ∧ calcTimingr s = (tcalc s.calcGrade).word) ∧
    ∀ s t : State, step s = .next t → calcValid t = calcValid s ∧ calcTimingr t = calcTimingr s

/-! ## The commands -/

/-- R111: CALC in IDLE completes in its one step: the fields are latched, RES_TIMINGR holds the grade's word, OUTCOME is
COMPLETE, STATE stays IDLE; nothing else but the command port's own data changes. -/
def Obligations.CalcCompletes : Prop :=
  ∀ (s : State) (g : Grade), s.STATE = .IDLE →
    exec (.calculate g) s = .next { takeCommand s with
      OP := 0b00#2
      INST := 0#2
      GRADE := (match g with | .std => 0b00#2 | .fast => 0b01#2 | .fastPlus => 0b10#2)
      ADDR := 0#16
      LEN := 0#32
      RES_TIMINGR := (match g with | .std => 0x10240F13#32 | .fast => 0x00130309#32 | .fastPlus => 0x00010306#32)
      OUTCOME := .COMPLETE
      STATE := .IDLE }

/-- R78: RESERVED in IDLE completes in its one step: the fields are latched, OUTCOME is INVALID_COMMAND; no bus access, no
payload read, RES_TIMINGR as before. It is for every `d`; for a `d` that is a valid command, which no decoder yields as
RESERVED, the outcome is the model's choice (log 21). -/
def Obligations.ReservedFinishesInvalid : Prop :=
  ∀ (s : State) (d : Desc), s.STATE = .IDLE →
    exec (.reserved d) s = .next { takeCommand s with
      OP := d.extractLsb' 62 2
      INST := d.extractLsb' 60 2
      GRADE := d.extractLsb' 58 2
      ADDR := d.extractLsb' 32 16
      LEN := d.extractLsb' 0 32
      OUTCOME := .INVALID_COMMAND
      STATE := .IDLE }

/-- R110, R112: the dispatch step of an INIT latches its fields and makes no bus access; OUTCOME keeps the previous
command's value. -/
def Obligations.InitDispatch : Prop :=
  ∀ (s : State) (i : BitVec 2) (g : Grade), s.STATE = .IDLE → i.toNat < s.cfg.ninst →
    exec (.init i g) s = .next { takeCommand s with
      OP := 0b01#2
      INST := i
      GRADE := (match g with | .std => 0b00#2 | .fast => 0b01#2 | .fastPlus => 0b10#2)
      ADDR := 0#16
      LEN := 0#32
      STATE := .I_RST_RD1 }

/-- R112, R121 with LEGACY_OR_LOAD = false: INIT completes. Its dispatch step answers a next state, and 7 steps later the
block is in IDLE with COMPLETE, having made exactly the 7 bus events of R121, whatever the reads answered. Nothing else
changes. -/
def Obligations.InitCompletes : Prop :=
  ∀ (s : State) (i : BitVec 2) (g : Grade) (x : Instance) (r1 r2 r4 : Word) (rest : List Word),
    s.STATE = .IDLE → Undisturbed s → configOk s.cfg = true → s.cfg.legacyOrLoad = false →
    instanceOf s.cfg i = some x → s.replies = r1 :: r2 :: r4 :: rest →
    ∃ t0, exec (.init i g) s = .next t0 ∧ t0.STATE = .I_RST_RD1 ∧ t0.events = s.events ∧
      run 7 t0 = .next { takeCommand s with
        STATE := .IDLE
        OP := 0b01#2
        INST := i
        GRADE := gradeCode g
        ADDR := 0#16
        LEN := 0#32
        TMP := r4
        RES_TIMINGR := (tcalc (gradeCode g)).word
        OUTCOME := .COMPLETE
        replies := rest
        events := s.events ++ initEvents s.cfg x (gradeCode g) r1 r2 r4 }

/-- R112, R121 with LEGACY_OR_LOAD = true: 8 steps and 8 events after the dispatch; the word loaded is the one read, ORed
with the calculator's. -/
def Obligations.InitCompletesLegacy : Prop :=
  ∀ (s : State) (i : BitVec 2) (g : Grade) (x : Instance) (r1 r2 r3 r4 : Word) (rest : List Word),
    s.STATE = .IDLE → Undisturbed s → configOk s.cfg = true → s.cfg.legacyOrLoad = true →
    instanceOf s.cfg i = some x → s.replies = r1 :: r2 :: r3 :: r4 :: rest →
    ∃ t0, exec (.init i g) s = .next t0 ∧ t0.STATE = .I_RST_RD1 ∧ t0.events = s.events ∧
      run 8 t0 = .next { takeCommand s with
        STATE := .IDLE
        OP := 0b01#2
        INST := i
        GRADE := gradeCode g
        ADDR := 0#16
        LEN := 0#32
        TMP := r4
        RES_TIMINGR := r3 ||| (tcalc (gradeCode g)).word
        OUTCOME := .COMPLETE
        replies := rest
        events := s.events ++ initEventsLegacy s.cfg x (gradeCode g) r1 r2 r3 r4 }

/-- R131: a WRITE to an address above 1023 fails in its dispatch step: INVALID_ADDRESS, no bus access, no payload read. -/
def Obligations.WriteInvalidAddress : Prop :=
  ∀ (s : State) (i : BitVec 2) (a : BitVec 16) (n : BitVec 32),
    s.STATE = .IDLE → i.toNat < s.cfg.ninst → 1023 < a.toNat →
    exec (.write i a n) s = .next { takeCommand s with
      OP := 0b10#2
      INST := i
      GRADE := 0#2
      ADDR := a
      LEN := n
      OUTCOME := .INVALID_ADDRESS
      STATE := .IDLE }

/-- R130: the dispatch step of a WRITE with a valid address sets up the transfer and makes no bus access; OUTCOME keeps
the previous command's value. CR2_BASE is R132's word under every configuration; that SADD stands at SADD_LO where that
is not 0 is read from R35 and D14 (log 19). -/
def Obligations.WriteDispatch : Prop :=
  ∀ (s : State) (i : BitVec 2) (a : BitVec 16) (n : BitVec 32),
    s.STATE = .IDLE → i.toNat < s.cfg.ninst → a.toNat ≤ 1023 →
    exec (.write i a n) s = .next { takeCommand s with
      OP := 0b10#2
      INST := i
      GRADE := 0#2
      ADDR := a
      LEN := n
      CR2_BASE :=
        if a.toNat ≤ 127 then
          ((a.setWidth 32 <<< s.cfg.sadd7Shift) <<< s.cfg.saddLo) ||| (0#32 <<< s.cfg.add10Bit)
            ||| (s.cfg.head10r7.setWidth 32 <<< s.cfg.head10rBit) ||| (0#32 <<< s.cfg.rdWrnBit)
        else
          (a.setWidth 32 <<< s.cfg.saddLo) ||| (1#32 <<< s.cfg.add10Bit)
            ||| (s.cfg.head10r10.setWidth 32 <<< s.cfg.head10rBit) ||| (0#32 <<< s.cfg.rdWrnBit)
      REM := n
      IDX := 0#32
      STATE := .W_ADDR }

/-- R130, R147: WRITE completes. For every payload, every pattern of answers that NACKs no byte and ends every TXE wait
below POLL_LIMIT, the dispatch step answers a next state and, one step per bus event later, the block is in IDLE with
COMPLETE, having made exactly the events of R147: the address word, a segment word before every 255th byte, and for every
byte its ISR reads and its TXDR write. Nothing else changes. With no byte, the one zero-byte segment word is the last
event. -/
def Obligations.WriteCompletes : Prop :=
  ∀ (s : State) (i : BitVec 2) (a : BitVec 16) (n : BitVec 32) (x : Instance) (bs : List ByteRun) (rest : List Word),
    s.STATE = .IDLE → Undisturbed s → configOk s.cfg = true → instanceOf s.cfg i = some x → a.toNat ≤ 1023 →
    n.toNat = bs.length → (takeCommand s).payload = bs.map ByteRun.byte →
    s.replies = bs.flatMap ByteRun.answers ++ rest → (∀ b ∈ bs, b.Sent s.cfg) →
    ∃ t0, exec (.write i a n) s = .next t0 ∧ t0.STATE = .W_ADDR ∧ t0.events = s.events ∧
      run (writeEvents s.cfg x (cr2Base s.cfg a) bs).length t0 = .next { takeCommand s with
        STATE := .IDLE
        OP := 0b10#2
        INST := i
        GRADE := 0#2
        ADDR := a
        LEN := n
        REM := 0#32
        SEGLEFT := 0#8
        FINAL := true
        IDX := n
        CR2_BASE := cr2Base s.cfg a
        POLLCNT := (match bs.getLast? with
          | some b => BitVec.ofNat 32 (min b.waits.length (2 ^ 32 - 1))
          | none => s.POLLCNT)
        OUTCOME := .COMPLETE
        replies := rest
        events := s.events ++ writeEvents s.cfg x (cr2Base s.cfg a) bs }

/-- R148: a NACK at byte k. The k bytes before it are sent, in order, and the read that sees NACKF = 1 is the last bus
access: ABORTED_NACK. -/
def Obligations.WriteNackAtByte : Prop :=
  ∀ (s : State) (i : BitVec 2) (a : BitVec 16) (n : BitVec 32) (x : Instance) (bs : List ByteRun) (unsent : List Byte)
    (r : Word) (rest : List Word),
    s.STATE = .IDLE → Undisturbed s → configOk s.cfg = true → instanceOf s.cfg i = some x → a.toNat ≤ 1023 →
    unsent ≠ [] → n.toNat = bs.length + unsent.length → (takeCommand s).payload = bs.map ByteRun.byte ++ unsent →
    s.replies = bs.flatMap ByteRun.answers ++ r :: rest → (∀ b ∈ bs, b.Sent s.cfg) → nackfOf s.cfg r = true →
    ∃ t0 t, exec (.write i a n) s = .next t0 ∧
      run (2 + (bytesEvents s.cfg x (cr2Base s.cfg a) n.toNat 0 bs).length
        + (segmentEvent s.cfg x (cr2Base s.cfg a) n.toNat bs.length).length) t0 = .next t ∧
      t.STATE = .IDLE ∧ t.OUTCOME = .ABORTED_NACK ∧ t.IDX.toNat = bs.length ∧ t.RES_TIMINGR = s.RES_TIMINGR ∧
      t.TMP = s.TMP ∧ t.LEN = n ∧ t.replies = rest ∧ t.cmdQueue = s.cmdQueue.tail ∧
      t.events = s.events ++ .wr (x.base + s.cfg.offCr2) (cr2Base s.cfg a) ::
        (bytesEvents s.cfg x (cr2Base s.cfg a) n.toNat 0 bs
          ++ segmentEvent s.cfg x (cr2Base s.cfg a) n.toNat bs.length ++ [.rd (x.base + s.cfg.offIsr) r])

/-- Log 21: INIT or WRITE on a code that names no instance is the reserved descriptor its words are; so is every command
what its own descriptor decodes to. The model's choice for terms no decoder yields. -/
def Obligations.ExecRespectsEncoding : Prop :=
  ∀ (s : State) (i : Instr), (∀ d, i ≠ .reserved d) → exec i s = exec (decode s.cfg.ninst (encode i)) s

/-- The frame of every dispatch step (R22, R110, R111, R130): from IDLE no command touches the bus, the payload port's
draws, TMP, SEGLEFT, FINAL, POLLCNT or any input; only CALC writes RES_TIMINGR; only an accepted WRITE writes CR2_BASE,
REM and IDX; the command leaves the port. That its payload then stands behind the payload port, for commands that never
read it too, is the model's choice (log 10), and so is what the frame says of terms no decoder yields (log 21). -/
def Obligations.DispatchFrame : Prop :=
  ∀ (s t : State) (i : Instr), s.STATE = .IDLE → exec i s = .next t →
    t.events = s.events ∧ t.replies = s.replies ∧ t.draws = s.draws ∧ t.TMP = s.TMP ∧ t.SEGLEFT = s.SEGLEFT
      ∧ t.FINAL = s.FINAL ∧ t.POLLCNT = s.POLLCNT ∧ t.rst = s.rst ∧ t.calcGrade = s.calcGrade ∧ t.busStall = s.busStall
      ∧ t.cfg = s.cfg ∧ t.cmdQueue = s.cmdQueue.tail
      ∧ t.payload = (match s.cmdQueue with | c :: _ => c.payload | [] => s.payload)
      ∧ ((∀ g, i ≠ .calculate g) → t.RES_TIMINGR = s.RES_TIMINGR)
      ∧ (t.STATE ≠ .W_ADDR → t.CR2_BASE = s.CR2_BASE ∧ t.REM = s.REM ∧ t.IDX = s.IDX)
      ∧ (t.STATE ≠ .IDLE → t.OUTCOME = s.OUTCOME)

/-! ## The FSM rules

`answer s` is what the environment answers a read made in state `s` (R53): its next scheduled answer, or a free value; the
read uses it up. -/

/-- R113 to R116: the four steps of the reset pulse. -/
def Obligations.ResetPulseSteps : Prop :=
  ∀ (s : State) (x : Instance),
    configOk s.cfg = true → Undisturbed s → instanceOf s.cfg s.INST = some x →
    (s.STATE = .I_RST_RD1 → step s = .next { s with
      TMP := answer s
      STATE := .I_RST_SET
      replies := s.replies.tail
      draws := if s.replies = [] then s.draws + 1 else s.draws
      events := s.events ++ [.rd s.cfg.rccApb1Rstr (answer s)] }) ∧
    (s.STATE = .I_RST_SET → step s = .next { s with
      STATE := .I_RST_RD2, events := s.events ++ [.wr s.cfg.rccApb1Rstr (s.TMP ||| (1#32 <<< x.rstBit))] }) ∧
    (s.STATE = .I_RST_RD2 → step s = .next { s with
      TMP := answer s
      STATE := .I_RST_CLR
      replies := s.replies.tail
      draws := if s.replies = [] then s.draws + 1 else s.draws
      events := s.events ++ [.rd s.cfg.rccApb1Rstr (answer s)] }) ∧
    (s.STATE = .I_RST_CLR → step s = .next { s with
      STATE := if s.cfg.legacyOrLoad then .I_TIM_RD else .I_TIM_WR
      events := s.events ++ [.wr s.cfg.rccApb1Rstr (s.TMP &&& ~~~(1#32 <<< x.rstBit))] })

/-- R117, R118: the timing register's read (LEGACY_OR_LOAD only) and load. -/
def Obligations.TimingLoadSteps : Prop :=
  ∀ (s : State) (x : Instance),
    configOk s.cfg = true → Undisturbed s → instanceOf s.cfg s.INST = some x →
    (s.STATE = .I_TIM_RD → step s = .next { s with
      TMP := answer s
      STATE := .I_TIM_WR
      replies := s.replies.tail
      draws := if s.replies = [] then s.draws + 1 else s.draws
      events := s.events ++ [.rd (x.base + s.cfg.offTimingr) (answer s)] }) ∧
    (s.STATE = .I_TIM_WR → s.cfg.legacyOrLoad = false → step s = .next { s with
      RES_TIMINGR := (tcalc s.GRADE).word
      STATE := .I_PE_RD
      events := s.events ++ [.wr (x.base + s.cfg.offTimingr) (tcalc s.GRADE).word] }) ∧
    (s.STATE = .I_TIM_WR → s.cfg.legacyOrLoad = true → step s = .next { s with
      RES_TIMINGR := s.TMP ||| (tcalc s.GRADE).word
      STATE := .I_PE_RD
      events := s.events ++ [.wr (x.base + s.cfg.offTimingr) (s.TMP ||| (tcalc s.GRADE).word)] })

/-- R119, R120: the peripheral-enable read and write, the end of INIT. -/
def Obligations.EnableSteps : Prop :=
  ∀ (s : State) (x : Instance),
    configOk s.cfg = true → Undisturbed s → instanceOf s.cfg s.INST = some x →
    (s.STATE = .I_PE_RD → step s = .next { s with
      TMP := answer s
      STATE := .I_PE_WR
      replies := s.replies.tail
      draws := if s.replies = [] then s.draws + 1 else s.draws
      events := s.events ++ [.rd (x.base + s.cfg.offCr1) (answer s)] }) ∧
    (s.STATE = .I_PE_WR → step s = .next { s with
      OUTCOME := .COMPLETE
      STATE := .IDLE
      events := s.events ++ [.wr (x.base + s.cfg.offCr1) (s.TMP ||| (1#32 <<< s.cfg.peBit))] })

/-- R133: the address phase is one write of CR2_BASE. -/
def Obligations.AddressPhaseStep : Prop :=
  ∀ (s : State) (x : Instance),
    configOk s.cfg = true → Undisturbed s → instanceOf s.cfg s.INST = some x → s.STATE = .W_ADDR →
    step s = .next { s with STATE := .W_SEG, events := s.events ++ [.wr (x.base + s.cfg.offCr2) s.CR2_BASE] }

/-- R134: a segment starts, for every number of bytes left. -/
def Obligations.SegmentStep : Prop :=
  ∀ (s : State) (x : Instance),
    configOk s.cfg = true → Undisturbed s → instanceOf s.cfg s.INST = some x → s.STATE = .W_SEG →
    (255 < s.REM.toNat → step s = .next { s with
      FINAL := false
      SEGLEFT := 255#8
      REM := s.REM - 255#32
      STATE := .W_NACK
      events := s.events ++ [.wr (x.base + s.cfg.offCr2)
        (s.CR2_BASE ||| 0x00FF0000#32 ||| (1#32 <<< s.cfg.reloadBit) ||| (1#32 <<< s.cfg.startBit))] }) ∧
    (s.REM.toNat ≤ 255 → s.REM ≠ 0#32 → step s = .next { s with
      FINAL := true
      SEGLEFT := s.REM.setWidth 8
      REM := 0#32
      STATE := .W_NACK
      events := s.events ++ [.wr (x.base + s.cfg.offCr2)
        (s.CR2_BASE ||| (s.REM <<< 16) ||| (1#32 <<< s.cfg.autoendBit) ||| (1#32 <<< s.cfg.startBit))] }) ∧
    (s.REM = 0#32 → step s = .next { s with
      FINAL := true
      SEGLEFT := 0#8
      OUTCOME := .COMPLETE
      STATE := .IDLE
      events := s.events ++ [.wr (x.base + s.cfg.offCr2)
        (s.CR2_BASE ||| (1#32 <<< s.cfg.autoendBit) ||| (1#32 <<< s.cfg.startBit))] })

/-- R136: the NACK check before a byte is one ISR read, of which only NACKF counts. -/
def Obligations.NackCheckStep : Prop :=
  ∀ (s : State) (x : Instance),
    configOk s.cfg = true → Undisturbed s → instanceOf s.cfg s.INST = some x → s.STATE = .W_NACK →
    ((answer s).getLsbD s.cfg.nackfBit = true → step s = .next { s with
      OUTCOME := .ABORTED_NACK
      STATE := .IDLE
      replies := s.replies.tail
      draws := if s.replies = [] then s.draws + 1 else s.draws
      events := s.events ++ [.rd (x.base + s.cfg.offIsr) (answer s)] }) ∧
    ((answer s).getLsbD s.cfg.nackfBit = false → step s = .next { s with
      POLLCNT := 0#32
      STATE := .W_TXE
      replies := s.replies.tail
      draws := if s.replies = [] then s.draws + 1 else s.draws
      events := s.events ++ [.rd (x.base + s.cfg.offIsr) (answer s)] })

/-- R137 (and the order of R175): TXE = 1 goes on to the byte, even at the POLL_LIMIT-th read; TXE = 0 ends with TIMEOUT at
the limit and is counted below it, saturating. -/
def Obligations.TxeWaitStep : Prop :=
  ∀ (s : State) (x : Instance),
    configOk s.cfg = true → Undisturbed s → instanceOf s.cfg s.INST = some x → s.STATE = .W_TXE →
    ((answer s).getLsbD s.cfg.txeBit = true → step s = .next { s with
      STATE := .W_DATA
      replies := s.replies.tail
      draws := if s.replies = [] then s.draws + 1 else s.draws
      events := s.events ++ [.rd (x.base + s.cfg.offIsr) (answer s)] }) ∧
    ((answer s).getLsbD s.cfg.txeBit = false → s.cfg.pollLimit ≠ 0#32 → s.cfg.pollLimit.toNat ≤ s.POLLCNT.toNat + 1 →
      step s = .next { s with
        OUTCOME := .TIMEOUT
        STATE := .IDLE
        replies := s.replies.tail
        draws := if s.replies = [] then s.draws + 1 else s.draws
        events := s.events ++ [.rd (x.base + s.cfg.offIsr) (answer s)] }) ∧
    ((answer s).getLsbD s.cfg.txeBit = false → (s.cfg.pollLimit = 0#32 ∨ s.POLLCNT.toNat + 1 < s.cfg.pollLimit.toNat) →
      step s = .next { s with
        POLLCNT := if s.POLLCNT = 0xFFFFFFFF#32 then 0xFFFFFFFF#32 else s.POLLCNT + 1#32
        replies := s.replies.tail
        draws := if s.replies = [] then s.draws + 1 else s.draws
        events := s.events ++ [.rd (x.base + s.cfg.offIsr) (answer s)] })

/-- R139: the byte at IDX goes to TXDR, zero-extended; then the next byte, the next segment, or the end. Where SEGLEFT is 0
or IDX is 2^32 - 1, in states no run reaches, the wrap-around is the model's choice (log 17). -/
def Obligations.DataStep : Prop :=
  ∀ (s : State) (x : Instance) (b : Byte),
    configOk s.cfg = true → Undisturbed s → instanceOf s.cfg s.INST = some x → s.STATE = .W_DATA →
    s.payload[s.IDX.toNat]? = some b →
    (s.SEGLEFT ≠ 1#8 → step s = .next { s with
      IDX := s.IDX + 1#32
      SEGLEFT := s.SEGLEFT - 1#8
      STATE := .W_NACK
      events := s.events ++ [.wr (x.base + s.cfg.offTxdr) (b.setWidth 32)] }) ∧
    (s.SEGLEFT = 1#8 → s.FINAL = true → step s = .next { s with
      IDX := s.IDX + 1#32
      SEGLEFT := 0#8
      OUTCOME := .COMPLETE
      STATE := .IDLE
      events := s.events ++ [.wr (x.base + s.cfg.offTxdr) (b.setWidth 32)] }) ∧
    (s.SEGLEFT = 1#8 → s.FINAL = false → step s = .next { s with
      IDX := s.IDX + 1#32
      SEGLEFT := 0#8
      STATE := .W_SEG
      events := s.events ++ [.wr (x.base + s.cfg.offTxdr) (b.setWidth 32)] })

/-! ## 41_write_sequencer.md: the laws -/

/-- R132 (and R150, R145) at the default bit positions: SADD, ADD10, HEAD10R, RD_WRN of every valid address, and nothing
above bit 12. -/
def Obligations.AddressPhaseFields : Prop :=
  ∀ a : BitVec 16, a.toNat ≤ 1023 →
    let w := cr2Base Config.default a
    (a.toNat ≤ 127 → (w.extractLsb' 0 10).toNat = 2 * a.toNat ∧ w.getLsbD 11 = false ∧ w.getLsbD 12 = true) ∧
    (128 ≤ a.toNat → (w.extractLsb' 0 10).toNat = a.toNat ∧ w.getLsbD 11 = true ∧ w.getLsbD 12 = false) ∧
    w.getLsbD 10 = false ∧ w.toNat < 2 ^ 13

/-- R147: a WRITE that completes appends 1 + nseg(LEN) + 3 * LEN bus events, and one more for each extra TXE = 0 answer,
one a step. -/
def Obligations.WriteEventCount : Prop :=
  ∀ (s : State) (i : BitVec 2) (a : BitVec 16) (n : BitVec 32) (x : Instance) (bs : List ByteRun) (rest : List Word),
    WriteSends s i a n x bs rest →
    let k := 1 + nseg n.toNat + 3 * n.toNat + (bs.map fun b => b.waits.length).sum
    ∃ t0 t, exec (.write i a n) s = .next t0 ∧ run k t0 = .next t ∧ t.STATE = .IDLE ∧ t.OUTCOME = .COMPLETE ∧
      t.events.length = s.events.length + k

/-- R135, R144: the CR2 words that a WRITE that completes writes: the address word, then nseg - 1 words with NBYTES = 255,
RELOAD and START, then exactly one with NBYTES = LEN - 255 (nseg - 1), AUTOEND and START. -/
def Obligations.SegmentWordsOfWrite : Prop :=
  ∀ (s : State) (i : BitVec 2) (a : BitVec 16) (n : BitVec 32) (x : Instance) (bs : List ByteRun) (rest : List Word),
    WriteSends s i a n x bs rest → x.base + s.cfg.offCr2 ≠ x.base + s.cfg.offTxdr →
    ∃ t0 t es, exec (.write i a n) s = .next t0 ∧ run (writeSteps bs) t0 = .next t ∧ t.STATE = .IDLE ∧
      t.OUTCOME = .COMPLETE ∧ t.events = s.events ++ es ∧
      writesAt (x.base + s.cfg.offCr2) es =
        cr2Base s.cfg a :: (List.replicate (nseg n.toNat - 1)
          (cr2Base s.cfg a ||| 0x00FF0000#32 ||| (1#32 <<< s.cfg.reloadBit) ||| (1#32 <<< s.cfg.startBit))
          ++ [cr2Base s.cfg a ||| (BitVec.ofNat 32 (n.toNat - 255 * (nseg n.toNat - 1)) <<< 16)
            ||| (1#32 <<< s.cfg.autoendBit) ||| (1#32 <<< s.cfg.startBit)])

/-- R57, R140: the TXDR words that a WRITE that completes writes are the bytes of its payload, all of them, in index order,
zero-extended. -/
def Obligations.PayloadSentInOrder : Prop :=
  ∀ (s : State) (i : BitVec 2) (a : BitVec 16) (n : BitVec 32) (x : Instance) (bs : List ByteRun) (rest : List Word),
    WriteSends s i a n x bs rest → x.base + s.cfg.offCr2 ≠ x.base + s.cfg.offTxdr →
    ∃ t0 t es, exec (.write i a n) s = .next t0 ∧ run (writeSteps bs) t0 = .next t ∧ t.STATE = .IDLE ∧
      t.OUTCOME = .COMPLETE ∧ t.events = s.events ++ es ∧
      writesAt (x.base + s.cfg.offTxdr) es = (takeCommand s).payload.map fun b => b.setWidth 32

/-- R138: with POLL_LIMIT = L > 0 the TXE wait of a byte ends with TIMEOUT at its L-th TXE = 0 read, and no bus access
follows it. -/
def Obligations.PollLimitGivesTimeout : Prop :=
  ∀ (s : State) (x : Instance) (nack : Word) (ws rest : List Word),
    configOk s.cfg = true → Undisturbed s → instanceOf s.cfg s.INST = some x → s.STATE = .W_NACK →
    nackfOf s.cfg nack = false → (∀ w ∈ ws, txeOf s.cfg w = false) → s.cfg.pollLimit ≠ 0#32 →
    ws.length = s.cfg.pollLimit.toNat → s.replies = nack :: (ws ++ rest) →
    run (1 + ws.length) s = .next { s with
      OUTCOME := .TIMEOUT
      STATE := .IDLE
      POLLCNT := s.cfg.pollLimit - 1#32
      replies := rest
      events := s.events ++ (nack :: ws).map fun r => .rd (x.base + s.cfg.offIsr) r }

/-- R146: with POLL_LIMIT = 0, for as long as TXE reads 0 the sequencer stays in W_TXE; the run is kept, with no outcome,
however long it is. -/
def Obligations.UnboundedPollingHangs : Prop :=
  ∀ (s : State) (x : Instance) (ws rest : List Word),
    configOk s.cfg = true → Undisturbed s → instanceOf s.cfg s.INST = some x → s.STATE = .W_TXE →
    s.cfg.pollLimit = 0#32 → (∀ w ∈ ws, txeOf s.cfg w = false) → s.replies = ws ++ rest →
    run ws.length s = .next { s with
      POLLCNT := BitVec.ofNat 32 (min (s.POLLCNT.toNat + ws.length) (2 ^ 32 - 1))
      replies := rest
      events := s.events ++ ws.map fun r => .rd (x.base + s.cfg.offIsr) r }

/-- R149, R35 at the default bit positions: in every CR2 word a step writes RD_WRN is 0, and so is every bit that is no
field of R35 (the STOP and NACK bits among them). -/
def Obligations.Cr2WordsAreWriteTransfers : Prop :=
  ∀ (s t : State) (x : Instance) (p : BitVec 32) (l : Bool) (v : Word),
    SeqInv s → s.cfg = { Config.default with pollLimit := p, legacyOrLoad := l } → instanceOf s.cfg s.INST = some x →
    step s = .next t → t.events = s.events ++ [.wr (x.base + s.cfg.offCr2) v] →
    v.getLsbD 10 = false ∧ v.getLsbD 14 = false ∧ v.getLsbD 15 = false ∧ ∀ k, 26 ≤ k → v.getLsbD k = false

/-! ## 10_state.md -/

/-- R25, R27, R29: the status port shows BUSY, cmd_ready, the code of the outcome and RES_TIMINGR. -/
def Obligations.StatusPortShows : Prop :=
  (∀ s : State, (statusPort s).busy = decide (s.STATE ≠ .IDLE) ∧ (statusPort s).cmdReady = decide (s.STATE = .IDLE)
    ∧ (statusPort s).outcome = outcomeCode s.OUTCOME ∧ (statusPort s).resTimingr = s.RES_TIMINGR) ∧
  ([CmdOutcome.NONE, .COMPLETE, .INVALID_ADDRESS, .ABORTED_NACK, .TIMEOUT, .INVALID_COMMAND].map outcomeCode)
    = [0#3, 1#3, 2#3, 3#3, 4#3, 5#3]

/-- R21: every register is written only by the steps its row names. -/
def Obligations.RegistersWrittenOnlyBy : Prop :=
  ∀ s t : State, step s = .next t → s.rst = false →
    ((t.OP ≠ s.OP ∨ t.INST ≠ s.INST ∨ t.GRADE ≠ s.GRADE ∨ t.ADDR ≠ s.ADDR ∨ t.LEN ≠ s.LEN) →
      s.STATE = .IDLE ∧ ∃ i, presented s = some i) ∧
    (t.REM ≠ s.REM → s.STATE = .W_SEG ∨ (s.STATE = .IDLE ∧ ∃ i a n, presented s = some (.write i a n))) ∧
    (t.SEGLEFT ≠ s.SEGLEFT → s.STATE = .W_SEG ∨ s.STATE = .W_DATA) ∧
    (t.FINAL ≠ s.FINAL → s.STATE = .W_SEG) ∧
    (t.IDX ≠ s.IDX → s.STATE = .W_DATA ∨ (s.STATE = .IDLE ∧ ∃ i a n, presented s = some (.write i a n))) ∧
    (t.CR2_BASE ≠ s.CR2_BASE → s.STATE = .IDLE ∧ ∃ i a n, presented s = some (.write i a n)) ∧
    (t.TMP ≠ s.TMP →
      s.STATE = .I_RST_RD1 ∨ s.STATE = .I_RST_RD2 ∨ s.STATE = .I_TIM_RD ∨ s.STATE = .I_PE_RD) ∧
    (t.POLLCNT ≠ s.POLLCNT → s.STATE = .W_NACK ∨ s.STATE = .W_TXE) ∧
    (t.OUTCOME ≠ s.OUTCOME → t.STATE = .IDLE) ∧
    (t.RES_TIMINGR ≠ s.RES_TIMINGR → s.STATE = .I_TIM_WR ∨ (s.STATE = .IDLE ∧ ∃ g, presented s = some (.calculate g)))

/-- R23: the code of each state, and which register its step accesses, and how; IDLE makes no access. -/
def Obligations.BusAccessOfEachState : Prop :=
  ([FsmState.IDLE, .I_RST_RD1, .I_RST_SET, .I_RST_RD2, .I_RST_CLR, .I_TIM_RD, .I_TIM_WR, .I_PE_RD, .I_PE_WR, .W_ADDR,
    .W_SEG, .W_NACK, .W_TXE, .W_DATA].map fun q => (stateCode q).toNat) = List.range 14 ∧
  ∀ s t : State, step s = .next t → s.rst = false →
    match s.STATE with
    | .IDLE => t.events = s.events
    | .I_RST_RD1 | .I_RST_RD2 => ∃ v, t.events = s.events ++ [.rd s.cfg.rccApb1Rstr v]
    | .I_RST_SET | .I_RST_CLR => ∃ v, t.events = s.events ++ [.wr s.cfg.rccApb1Rstr v]
    | .I_TIM_RD => ∃ x v, instanceOf s.cfg s.INST = some x ∧ t.events = s.events ++ [.rd (x.base + s.cfg.offTimingr) v]
    | .I_TIM_WR => ∃ x v, instanceOf s.cfg s.INST = some x ∧ t.events = s.events ++ [.wr (x.base + s.cfg.offTimingr) v]
    | .I_PE_RD => ∃ x v, instanceOf s.cfg s.INST = some x ∧ t.events = s.events ++ [.rd (x.base + s.cfg.offCr1) v]
    | .I_PE_WR => ∃ x v, instanceOf s.cfg s.INST = some x ∧ t.events = s.events ++ [.wr (x.base + s.cfg.offCr1) v]
    | .W_ADDR | .W_SEG =>
      ∃ x v, instanceOf s.cfg s.INST = some x ∧ t.events = s.events ++ [.wr (x.base + s.cfg.offCr2) v]
    | .W_NACK | .W_TXE =>
      ∃ x v, instanceOf s.cfg s.INST = some x ∧ t.events = s.events ++ [.rd (x.base + s.cfg.offIsr) v]
    | .W_DATA => ∃ x v, instanceOf s.cfg s.INST = some x ∧ t.events = s.events ++ [.wr (x.base + s.cfg.offTxdr) v]

/-- R37: of an ISR answer only NACKF counts in W_NACK and only TXE in W_TXE; two answers that agree there lead to the same
state, but for the event that records the answer. -/
def Obligations.OtherIsrBitsIgnored : Prop :=
  ∀ (s t : State) (x : Instance) (r r' : Word) (rs : List Word),
    s.rst = false → instanceOf s.cfg s.INST = some x → s.replies = r :: rs →
    (s.STATE = .W_NACK ∧ r.getLsbD s.cfg.nackfBit = r'.getLsbD s.cfg.nackfBit
      ∨ s.STATE = .W_TXE ∧ r.getLsbD s.cfg.txeBit = r'.getLsbD s.cfg.txeBit) →
    step s = .next t →
    step { s with replies := r' :: rs } = .next { t with events := s.events ++ [.rd (x.base + s.cfg.offIsr) r'] }

/-- R40: the registers after reset. -/
def Obligations.ResetRegisters : Prop :=
  State.reset.STATE = .IDLE ∧ State.reset.OUTCOME = .NONE ∧ State.reset.RES_TIMINGR = 0x00000000#32 ∧
    State.reset.OP = 0#2 ∧ State.reset.INST = 0#2 ∧ State.reset.GRADE = 0#2 ∧ State.reset.ADDR = 0#16 ∧
    State.reset.LEN = 0#32 ∧ State.reset.REM = 0#32 ∧ State.reset.SEGLEFT = 0#8 ∧ State.reset.FINAL = false ∧
    State.reset.IDX = 0#32 ∧ State.reset.CR2_BASE = 0#32 ∧ State.reset.TMP = 0#32 ∧ State.reset.POLLCNT = 0#32 ∧
    busy State.reset = false ∧ cmdReady State.reset = true

/-! ## 20_memory.md -/

/-- R24, R55, R63: a step makes at most one bus access, recorded after all earlier ones: exactly one when a busy state's
rule runs, none in IDLE and none in a reset step. -/
def Obligations.OneAccessPerBusyStep : Prop :=
  ∀ s t : State, step s = .next t →
    ((s.rst = true ∨ s.STATE = .IDLE) → t.events = s.events) ∧
    (s.rst = false → s.STATE ≠ .IDLE → ∃ e, t.events = s.events ++ [e])

/-- R52: every access is at a multiple of 4. -/
def Obligations.AccessesAligned : Prop :=
  ∀ (s t : State) (e : BusEvent), step s = .next t → t.events = s.events ++ [e] → (eventAddr e).toNat % 4 = 0

/-- R55: a step of a running command whose bus access never completes has no successor; in IDLE there is no access to wait
for. The fault's name and the input that raises it are the model's choice (log 13); so is that IDLE has a next state with
no command presented (log 15). -/
def Obligations.StalledAccessIsStuck : Prop :=
  ∀ s : State, SeqInv s → s.rst = false → s.busStall = true →
    (s.STATE ≠ .IDLE → step s = .fault .busAccessNeverCompletes) ∧
    (s.STATE = .IDLE → ∃ t, step s = .next t)

/-- R60, R123, R142 at the default addresses: no step accesses the clock-enable register, writes ISR, or reads TXDR or
CR2, of any instance. -/
def Obligations.RegistersNeverAccessed : Prop :=
  ∀ (s t : State) (e : BusEvent) (p : BitVec 32) (l : Bool),
    s.cfg = { Config.default with pollLimit := p, legacyOrLoad := l } → step s = .next t →
    t.events = s.events ++ [e] →
    eventAddr e ≠ Config.default.rccApb1Enr ∧
    ∀ x ∈ Config.default.instances, ∀ v : Word,
      e ≠ .wr (x.base + Config.default.offIsr) v ∧ e ≠ .rd (x.base + Config.default.offTxdr) v
        ∧ e ≠ .rd (x.base + Config.default.offCr2) v

/-! ## 60_exceptions.md, 70_reset_and_hazards.md, the command port -/

/-- R170, R173: the step in which each outcome is raised. A step that ends a running command ends it in one of these ways,
and a step of IDLE that accepts a command and stays in IDLE ends that command in one of these. -/
def Obligations.OutcomeOfEachEnding : Prop :=
  ∀ s t : State, step s = .next t → s.rst = false → t.STATE = .IDLE →
    (s.STATE ≠ .IDLE →
      ((s.STATE = .I_PE_WR ∨ s.STATE = .W_SEG ∨ s.STATE = .W_DATA) ∧ t.OUTCOME = .COMPLETE)
        ∨ (s.STATE = .W_NACK ∧ t.OUTCOME = .ABORTED_NACK)
        ∨ (s.STATE = .W_TXE ∧ t.OUTCOME = .TIMEOUT ∧ s.cfg.pollLimit ≠ 0#32)) ∧
    (s.STATE = .IDLE → ∀ i, presented s = some i →
      (∃ g, i = .calculate g ∧ t.OUTCOME = .COMPLETE)
        ∨ (∃ j a n, i = .write j a n ∧ 1023 < a.toNat ∧ t.OUTCOME = .INVALID_ADDRESS)
        ∨ (∃ d, i = .reserved d ∧ t.OUTCOME = .INVALID_COMMAND))

/-- R175 (2): a reserved WRITE descriptor with an address above 1023 finishes INVALID_COMMAND, not INVALID_ADDRESS. -/
def Obligations.InvalidCommandBeforeAddress : Prop :=
  ∀ (s : State) (c : Command) (cs : List Command),
    configOk s.cfg = true → s.rst = false → s.STATE = .IDLE → s.cmdQueue = c :: cs →
    c.desc.extractLsb' 62 2 = 0b10#2 → 1023 < (c.desc.extractLsb' 32 16).toNat →
    ∃ t, step s = .next t ∧ t.STATE = .IDLE ∧ t.events = s.events ∧
      ((c.desc.extractLsb' 48 10 ≠ 0#10 ∨ c.desc.extractLsb' 58 2 ≠ 0#2
          ∨ s.cfg.ninst ≤ (c.desc.extractLsb' 60 2).toNat) → t.OUTCOME = .INVALID_COMMAND) ∧
      (c.desc.extractLsb' 48 10 = 0#10 → c.desc.extractLsb' 58 2 = 0#2 →
          (c.desc.extractLsb' 60 2).toNat < s.cfg.ninst → t.OUTCOME = .INVALID_ADDRESS)

/-- R190: a step with `rst` = 1, from any state and with any command presented, performs no rule of any state: every
register takes its reset value; no bus access, no payload read, and the events already made stand. That the command
presented, the payload and the environment's coming answers stand too is read from R190, R41 and R191 (log 22). -/
def Obligations.ResetStep : Prop :=
  ∀ s : State, configOk s.cfg = true → s.rst = true → step s = .next { s with
    STATE := .IDLE, OP := 0#2, INST := 0#2, GRADE := 0#2, ADDR := 0#16, LEN := 0#32, REM := 0#32, SEGLEFT := 0#8,
    FINAL := false, IDX := 0#32, CR2_BASE := 0#32, TMP := 0#32, POLLCNT := 0#32, OUTCOME := .NONE,
    RES_TIMINGR := 0#32 }

/-- R191: once reset is released the block accepts the command presented in the next step. That the command presented in
the reset step is still there is read from R190 (log 22). -/
def Obligations.AcceptsAfterReset : Prop :=
  ∀ (s t : State) (c : Command) (cs : List Command), s.rst = true → s.cmdQueue = c :: cs → step s = .next t →
    step { t with rst := false } = exec (decode s.cfg.ninst c.desc) { t with rst := false } ∧
    ∃ u, step { t with rst := false } = .next u ∧ u.cmdQueue = cs

/-- R28, R110: with a command presented and no reset, a step is exec of the command the descriptor decodes to, for every
state; so it is where `withFetchWord` presents it, which puts the block in IDLE. How `withFetchWord` presents a command is
the model's choice (log 9), and that exec of any command is the running command's step while BUSY is read from R28
(log 16). -/
def Obligations.StepRunsPresentedCommand : Prop :=
  (∀ (s : State) (c : Command) (cs : List Command), configOk s.cfg = true → s.rst = false → s.cmdQueue = c :: cs →
    step s = exec (decode s.cfg.ninst c.desc) s) ∧
  ∀ (s : State) (w : Nat), configOk s.cfg = true → w < 2 ^ 64 →
    step (s.withFetchWord 64 w) = exec (decode s.cfg.ninst (BitVec.ofNat 64 w)) (s.withFetchWord 64 w) ∧
    (s.withFetchWord 64 w).STATE = .IDLE

/-- R28, R66, R176: while BUSY the command port is not read: whatever is presented, the running command makes the same
step, and what is presented waits. -/
def Obligations.BusyIgnoresCommandPort : Prop :=
  ∀ (s : State) (q : List Command), s.STATE ≠ .IDLE → s.rst = false →
    (∀ t, step s = .next t →
      t.cmdQueue = s.cmdQueue ∧ step { s with cmdQueue := q } = .next { t with cmdQueue := q }) ∧
    (∀ f, step s = .fault f → step { s with cmdQueue := q } = .fault f) ∧
    (∀ i, exec i s = sequencerStep s)

/-- R24, PORT-4: with no command, IDLE changes nothing. That the model's step then answers the same state is its choice
(log 15). -/
def Obligations.IdleWithoutCommand : Prop :=
  ∀ s : State, configOk s.cfg = true → s.rst = false → s.STATE = .IDLE → s.cmdQueue = [] → step s = .next s

/-- R56, R182, R190, R10: no step of a running command, and no reset step, changes the payload, the command port, the
inputs or the parameters; no step at all changes the inputs or the parameters. That these are fields of the state which
steps leave alone is the model's choice (log 3 the parameters, log 13 the bus, log 14 reset, log 28 the payload, log 22
a reset step). -/
def Obligations.InputsAreTheHosts : Prop :=
  ∀ s t : State, step s = .next t →
    t.rst = s.rst ∧ t.calcGrade = s.calcGrade ∧ t.busStall = s.busStall ∧ t.cfg = s.cfg ∧
    ((s.STATE ≠ .IDLE ∨ s.rst = true) → t.payload = s.payload ∧ t.cmdQueue = s.cmdQueue)

/-- R11: a configuration with an address that is no multiple of 4 or a bit position above 31 is refused before any run, and
no other is. That the refusal is that of every step, a reset step included, and that nothing else is refused are read from
R11 (log 6). -/
def Obligations.BadConfigurationRefused : Prop :=
  ∀ s : State,
    step s = .refused .configSpellsNoBlock ↔
      ¬((∀ a ∈ [s.cfg.offCr1, s.cfg.offCr2, s.cfg.offTimingr, s.cfg.offIsr, s.cfg.offTxdr, s.cfg.rccApb1Rstr,
            s.cfg.rccApb1Enr], a.toNat % 4 = 0) ∧
        (∀ b ∈ [s.cfg.peBit, s.cfg.saddLo, s.cfg.rdWrnBit, s.cfg.add10Bit, s.cfg.head10rBit, s.cfg.startBit, s.cfg.reloadBit,
            s.cfg.autoendBit, s.cfg.txeBit, s.cfg.nackfBit], b < 32) ∧
        ∀ x ∈ s.cfg.instances, x.base.toNat % 4 = 0 ∧ x.rstBit < 32 ∧ x.enBit < 32)

/-! ## The invariant -/

/-- R11, R40, R145: the invariant holds after reset. -/
def Obligations.InvariantAtReset : Prop := SeqInv State.reset

/-- R75, R131, R145: every step keeps the invariant, whatever the environment answers and the host presents: operands stay
legal, no counter wraps, every payload read is below LEN, POLLCNT stays below POLL_LIMIT. -/
def Obligations.StepKeepsInvariant : Prop :=
  ∀ s t : State, SeqInv s → step s = .next t → SeqInv t

/-- R56, R145: in a state the invariant holds of, the payload index W_DATA reads is below LEN, and neither IDX nor SEGLEFT
wraps in its step. -/
def Obligations.DataStepNeverWraps : Prop :=
  ∀ s t : State, SeqInv s → s.rst = false → s.STATE = .W_DATA → step s = .next t →
    s.IDX.toNat < s.LEN.toNat ∧ t.IDX.toNat = s.IDX.toNat + 1 ∧ t.SEGLEFT.toNat + 1 = s.SEGLEFT.toNat

/-- R24, R170: in a state the invariant holds of, with the bus live, the machine always has a next state: no fault and no
refusal. That IDLE with no command presented has one too is the model's choice (log 15). -/
def Obligations.LegalStatesStep : Prop :=
  ∀ s : State, SeqInv s → s.busStall = false → ∃ t, step s = .next t

/-- R200: with POLL_LIMIT > 0 every command finishes, whatever the environment answers. -/
def Obligations.BoundedPollingTerminates : Prop :=
  ∀ s : State, SeqInv s → Undisturbed s → s.cfg.pollLimit ≠ 0#32 → ∃ k t, run k s = .next t ∧ t.STATE = .IDLE
end

