-- ==== Sys2Proof/Laws/State.lean ====
section
/-! SUPPORT. One lemma per field per named update of the state: what the update makes of the field. -/

namespace Sys2Proof.Machine

variable (s : State)

/-! ## afterRead -/

@[simp] theorem afterRead_STATE (a : Word) : (afterRead a s).STATE = s.STATE := rfl
@[simp] theorem afterRead_OP (a : Word) : (afterRead a s).OP = s.OP := rfl
@[simp] theorem afterRead_INST (a : Word) : (afterRead a s).INST = s.INST := rfl
@[simp] theorem afterRead_GRADE (a : Word) : (afterRead a s).GRADE = s.GRADE := rfl
@[simp] theorem afterRead_ADDR (a : Word) : (afterRead a s).ADDR = s.ADDR := rfl
@[simp] theorem afterRead_LEN (a : Word) : (afterRead a s).LEN = s.LEN := rfl
@[simp] theorem afterRead_REM (a : Word) : (afterRead a s).REM = s.REM := rfl
@[simp] theorem afterRead_SEGLEFT (a : Word) : (afterRead a s).SEGLEFT = s.SEGLEFT := rfl
@[simp] theorem afterRead_FINAL (a : Word) : (afterRead a s).FINAL = s.FINAL := rfl
@[simp] theorem afterRead_IDX (a : Word) : (afterRead a s).IDX = s.IDX := rfl
@[simp] theorem afterRead_CR2_BASE (a : Word) : (afterRead a s).CR2_BASE = s.CR2_BASE := rfl
@[simp] theorem afterRead_TMP (a : Word) : (afterRead a s).TMP = s.TMP := rfl
@[simp] theorem afterRead_POLLCNT (a : Word) : (afterRead a s).POLLCNT = s.POLLCNT := rfl
@[simp] theorem afterRead_OUTCOME (a : Word) : (afterRead a s).OUTCOME = s.OUTCOME := rfl
@[simp] theorem afterRead_RES_TIMINGR (a : Word) : (afterRead a s).RES_TIMINGR = s.RES_TIMINGR := rfl
@[simp] theorem afterRead_cmdQueue (a : Word) : (afterRead a s).cmdQueue = s.cmdQueue := rfl
@[simp] theorem afterRead_payload (a : Word) : (afterRead a s).payload = s.payload := rfl
@[simp] theorem afterRead_rst (a : Word) : (afterRead a s).rst = s.rst := rfl
@[simp] theorem afterRead_calcGrade (a : Word) : (afterRead a s).calcGrade = s.calcGrade := rfl
@[simp] theorem afterRead_replies (a : Word) : (afterRead a s).replies = s.replies.tail := rfl
@[simp] theorem afterRead_busStall (a : Word) : (afterRead a s).busStall = s.busStall := rfl
@[simp] theorem afterRead_events (a : Word) : (afterRead a s).events = s.events ++ [.rd a (answer s)] := rfl
@[simp] theorem afterRead_draws (a : Word) : (afterRead a s).draws = if s.replies.isEmpty then s.draws + 1 else s.draws := rfl
@[simp] theorem afterRead_cfg (a : Word) : (afterRead a s).cfg = s.cfg := rfl

/-! ## afterWrite -/

@[simp] theorem afterWrite_STATE (a v : Word) : (afterWrite a v s).STATE = s.STATE := rfl
@[simp] theorem afterWrite_OP (a v : Word) : (afterWrite a v s).OP = s.OP := rfl
@[simp] theorem afterWrite_INST (a v : Word) : (afterWrite a v s).INST = s.INST := rfl
@[simp] theorem afterWrite_GRADE (a v : Word) : (afterWrite a v s).GRADE = s.GRADE := rfl
@[simp] theorem afterWrite_ADDR (a v : Word) : (afterWrite a v s).ADDR = s.ADDR := rfl
@[simp] theorem afterWrite_LEN (a v : Word) : (afterWrite a v s).LEN = s.LEN := rfl
@[simp] theorem afterWrite_REM (a v : Word) : (afterWrite a v s).REM = s.REM := rfl
@[simp] theorem afterWrite_SEGLEFT (a v : Word) : (afterWrite a v s).SEGLEFT = s.SEGLEFT := rfl
@[simp] theorem afterWrite_FINAL (a v : Word) : (afterWrite a v s).FINAL = s.FINAL := rfl
@[simp] theorem afterWrite_IDX (a v : Word) : (afterWrite a v s).IDX = s.IDX := rfl
@[simp] theorem afterWrite_CR2_BASE (a v : Word) : (afterWrite a v s).CR2_BASE = s.CR2_BASE := rfl
@[simp] theorem afterWrite_TMP (a v : Word) : (afterWrite a v s).TMP = s.TMP := rfl
@[simp] theorem afterWrite_POLLCNT (a v : Word) : (afterWrite a v s).POLLCNT = s.POLLCNT := rfl
@[simp] theorem afterWrite_OUTCOME (a v : Word) : (afterWrite a v s).OUTCOME = s.OUTCOME := rfl
@[simp] theorem afterWrite_RES_TIMINGR (a v : Word) : (afterWrite a v s).RES_TIMINGR = s.RES_TIMINGR := rfl
@[simp] theorem afterWrite_cmdQueue (a v : Word) : (afterWrite a v s).cmdQueue = s.cmdQueue := rfl
@[simp] theorem afterWrite_payload (a v : Word) : (afterWrite a v s).payload = s.payload := rfl
@[simp] theorem afterWrite_rst (a v : Word) : (afterWrite a v s).rst = s.rst := rfl
@[simp] theorem afterWrite_calcGrade (a v : Word) : (afterWrite a v s).calcGrade = s.calcGrade := rfl
@[simp] theorem afterWrite_replies (a v : Word) : (afterWrite a v s).replies = s.replies := rfl
@[simp] theorem afterWrite_busStall (a v : Word) : (afterWrite a v s).busStall = s.busStall := rfl
@[simp] theorem afterWrite_events (a v : Word) : (afterWrite a v s).events = s.events ++ [.wr a v] := rfl
@[simp] theorem afterWrite_draws (a v : Word) : (afterWrite a v s).draws = s.draws := rfl
@[simp] theorem afterWrite_cfg (a v : Word) : (afterWrite a v s).cfg = s.cfg := rfl

/-! ## afterPayRead -/

@[simp] theorem afterPayRead_STATE (i : BitVec 32) : (afterPayRead i s).STATE = s.STATE := rfl
@[simp] theorem afterPayRead_OP (i : BitVec 32) : (afterPayRead i s).OP = s.OP := rfl
@[simp] theorem afterPayRead_INST (i : BitVec 32) : (afterPayRead i s).INST = s.INST := rfl
@[simp] theorem afterPayRead_GRADE (i : BitVec 32) : (afterPayRead i s).GRADE = s.GRADE := rfl
@[simp] theorem afterPayRead_ADDR (i : BitVec 32) : (afterPayRead i s).ADDR = s.ADDR := rfl
@[simp] theorem afterPayRead_LEN (i : BitVec 32) : (afterPayRead i s).LEN = s.LEN := rfl
@[simp] theorem afterPayRead_REM (i : BitVec 32) : (afterPayRead i s).REM = s.REM := rfl
@[simp] theorem afterPayRead_SEGLEFT (i : BitVec 32) : (afterPayRead i s).SEGLEFT = s.SEGLEFT := rfl
@[simp] theorem afterPayRead_FINAL (i : BitVec 32) : (afterPayRead i s).FINAL = s.FINAL := rfl
@[simp] theorem afterPayRead_IDX (i : BitVec 32) : (afterPayRead i s).IDX = s.IDX := rfl
@[simp] theorem afterPayRead_CR2_BASE (i : BitVec 32) : (afterPayRead i s).CR2_BASE = s.CR2_BASE := rfl
@[simp] theorem afterPayRead_TMP (i : BitVec 32) : (afterPayRead i s).TMP = s.TMP := rfl
@[simp] theorem afterPayRead_POLLCNT (i : BitVec 32) : (afterPayRead i s).POLLCNT = s.POLLCNT := rfl
@[simp] theorem afterPayRead_OUTCOME (i : BitVec 32) : (afterPayRead i s).OUTCOME = s.OUTCOME := rfl
@[simp] theorem afterPayRead_RES_TIMINGR (i : BitVec 32) : (afterPayRead i s).RES_TIMINGR = s.RES_TIMINGR := rfl
@[simp] theorem afterPayRead_cmdQueue (i : BitVec 32) : (afterPayRead i s).cmdQueue = s.cmdQueue := rfl
@[simp] theorem afterPayRead_payload (i : BitVec 32) : (afterPayRead i s).payload = s.payload := rfl
@[simp] theorem afterPayRead_rst (i : BitVec 32) : (afterPayRead i s).rst = s.rst := rfl
@[simp] theorem afterPayRead_calcGrade (i : BitVec 32) : (afterPayRead i s).calcGrade = s.calcGrade := rfl
@[simp] theorem afterPayRead_replies (i : BitVec 32) : (afterPayRead i s).replies = s.replies := rfl
@[simp] theorem afterPayRead_busStall (i : BitVec 32) : (afterPayRead i s).busStall = s.busStall := rfl
@[simp] theorem afterPayRead_events (i : BitVec 32) : (afterPayRead i s).events = s.events := rfl
@[simp] theorem afterPayRead_draws (i : BitVec 32) : (afterPayRead i s).draws = if s.payload.length ≤ i.toNat then s.draws + 1 else s.draws := rfl
@[simp] theorem afterPayRead_cfg (i : BitVec 32) : (afterPayRead i s).cfg = s.cfg := rfl

/-! ## takeCommand -/

@[simp] theorem takeCommand_STATE : (takeCommand s).STATE = s.STATE := rfl
@[simp] theorem takeCommand_OP : (takeCommand s).OP = s.OP := rfl
@[simp] theorem takeCommand_INST : (takeCommand s).INST = s.INST := rfl
@[simp] theorem takeCommand_GRADE : (takeCommand s).GRADE = s.GRADE := rfl
@[simp] theorem takeCommand_ADDR : (takeCommand s).ADDR = s.ADDR := rfl
@[simp] theorem takeCommand_LEN : (takeCommand s).LEN = s.LEN := rfl
@[simp] theorem takeCommand_REM : (takeCommand s).REM = s.REM := rfl
@[simp] theorem takeCommand_SEGLEFT : (takeCommand s).SEGLEFT = s.SEGLEFT := rfl
@[simp] theorem takeCommand_FINAL : (takeCommand s).FINAL = s.FINAL := rfl
@[simp] theorem takeCommand_IDX : (takeCommand s).IDX = s.IDX := rfl
@[simp] theorem takeCommand_CR2_BASE : (takeCommand s).CR2_BASE = s.CR2_BASE := rfl
@[simp] theorem takeCommand_TMP : (takeCommand s).TMP = s.TMP := rfl
@[simp] theorem takeCommand_POLLCNT : (takeCommand s).POLLCNT = s.POLLCNT := rfl
@[simp] theorem takeCommand_OUTCOME : (takeCommand s).OUTCOME = s.OUTCOME := rfl
@[simp] theorem takeCommand_RES_TIMINGR : (takeCommand s).RES_TIMINGR = s.RES_TIMINGR := rfl
@[simp] theorem takeCommand_cmdQueue : (takeCommand s).cmdQueue = s.cmdQueue.tail := rfl
@[simp] theorem takeCommand_payload : (takeCommand s).payload = (s.cmdQueue.head?.map Command.payload).getD s.payload := rfl
@[simp] theorem takeCommand_rst : (takeCommand s).rst = s.rst := rfl
@[simp] theorem takeCommand_calcGrade : (takeCommand s).calcGrade = s.calcGrade := rfl
@[simp] theorem takeCommand_replies : (takeCommand s).replies = s.replies := rfl
@[simp] theorem takeCommand_busStall : (takeCommand s).busStall = s.busStall := rfl
@[simp] theorem takeCommand_events : (takeCommand s).events = s.events := rfl
@[simp] theorem takeCommand_draws : (takeCommand s).draws = s.draws := rfl
@[simp] theorem takeCommand_cfg : (takeCommand s).cfg = s.cfg := rfl

/-! ## latch -/

@[simp] theorem latch_STATE (op inst grade : BitVec 2) (addr : BitVec 16) (len : BitVec 32) : (latch op inst grade addr len s).STATE = s.STATE := rfl
@[simp] theorem latch_OP (op inst grade : BitVec 2) (addr : BitVec 16) (len : BitVec 32) : (latch op inst grade addr len s).OP = op := rfl
@[simp] theorem latch_INST (op inst grade : BitVec 2) (addr : BitVec 16) (len : BitVec 32) : (latch op inst grade addr len s).INST = inst := rfl
@[simp] theorem latch_GRADE (op inst grade : BitVec 2) (addr : BitVec 16) (len : BitVec 32) : (latch op inst grade addr len s).GRADE = grade := rfl
@[simp] theorem latch_ADDR (op inst grade : BitVec 2) (addr : BitVec 16) (len : BitVec 32) : (latch op inst grade addr len s).ADDR = addr := rfl
@[simp] theorem latch_LEN (op inst grade : BitVec 2) (addr : BitVec 16) (len : BitVec 32) : (latch op inst grade addr len s).LEN = len := rfl
@[simp] theorem latch_REM (op inst grade : BitVec 2) (addr : BitVec 16) (len : BitVec 32) : (latch op inst grade addr len s).REM = s.REM := rfl
@[simp] theorem latch_SEGLEFT (op inst grade : BitVec 2) (addr : BitVec 16) (len : BitVec 32) : (latch op inst grade addr len s).SEGLEFT = s.SEGLEFT := rfl
@[simp] theorem latch_FINAL (op inst grade : BitVec 2) (addr : BitVec 16) (len : BitVec 32) : (latch op inst grade addr len s).FINAL = s.FINAL := rfl
@[simp] theorem latch_IDX (op inst grade : BitVec 2) (addr : BitVec 16) (len : BitVec 32) : (latch op inst grade addr len s).IDX = s.IDX := rfl
@[simp] theorem latch_CR2_BASE (op inst grade : BitVec 2) (addr : BitVec 16) (len : BitVec 32) : (latch op inst grade addr len s).CR2_BASE = s.CR2_BASE := rfl
@[simp] theorem latch_TMP (op inst grade : BitVec 2) (addr : BitVec 16) (len : BitVec 32) : (latch op inst grade addr len s).TMP = s.TMP := rfl
@[simp] theorem latch_POLLCNT (op inst grade : BitVec 2) (addr : BitVec 16) (len : BitVec 32) : (latch op inst grade addr len s).POLLCNT = s.POLLCNT := rfl
@[simp] theorem latch_OUTCOME (op inst grade : BitVec 2) (addr : BitVec 16) (len : BitVec 32) : (latch op inst grade addr len s).OUTCOME = s.OUTCOME := rfl
@[simp] theorem latch_RES_TIMINGR (op inst grade : BitVec 2) (addr : BitVec 16) (len : BitVec 32) : (latch op inst grade addr len s).RES_TIMINGR = s.RES_TIMINGR := rfl
@[simp] theorem latch_cmdQueue (op inst grade : BitVec 2) (addr : BitVec 16) (len : BitVec 32) : (latch op inst grade addr len s).cmdQueue = s.cmdQueue := rfl
@[simp] theorem latch_payload (op inst grade : BitVec 2) (addr : BitVec 16) (len : BitVec 32) : (latch op inst grade addr len s).payload = s.payload := rfl
@[simp] theorem latch_rst (op inst grade : BitVec 2) (addr : BitVec 16) (len : BitVec 32) : (latch op inst grade addr len s).rst = s.rst := rfl
@[simp] theorem latch_calcGrade (op inst grade : BitVec 2) (addr : BitVec 16) (len : BitVec 32) : (latch op inst grade addr len s).calcGrade = s.calcGrade := rfl
@[simp] theorem latch_replies (op inst grade : BitVec 2) (addr : BitVec 16) (len : BitVec 32) : (latch op inst grade addr len s).replies = s.replies := rfl
@[simp] theorem latch_busStall (op inst grade : BitVec 2) (addr : BitVec 16) (len : BitVec 32) : (latch op inst grade addr len s).busStall = s.busStall := rfl
@[simp] theorem latch_events (op inst grade : BitVec 2) (addr : BitVec 16) (len : BitVec 32) : (latch op inst grade addr len s).events = s.events := rfl
@[simp] theorem latch_draws (op inst grade : BitVec 2) (addr : BitVec 16) (len : BitVec 32) : (latch op inst grade addr len s).draws = s.draws := rfl
@[simp] theorem latch_cfg (op inst grade : BitVec 2) (addr : BitVec 16) (len : BitVec 32) : (latch op inst grade addr len s).cfg = s.cfg := rfl

/-! ## finish -/

@[simp] theorem finish_STATE (o : CmdOutcome) : (finish o s).STATE = .IDLE := rfl
@[simp] theorem finish_OP (o : CmdOutcome) : (finish o s).OP = s.OP := rfl
@[simp] theorem finish_INST (o : CmdOutcome) : (finish o s).INST = s.INST := rfl
@[simp] theorem finish_GRADE (o : CmdOutcome) : (finish o s).GRADE = s.GRADE := rfl
@[simp] theorem finish_ADDR (o : CmdOutcome) : (finish o s).ADDR = s.ADDR := rfl
@[simp] theorem finish_LEN (o : CmdOutcome) : (finish o s).LEN = s.LEN := rfl
@[simp] theorem finish_REM (o : CmdOutcome) : (finish o s).REM = s.REM := rfl
@[simp] theorem finish_SEGLEFT (o : CmdOutcome) : (finish o s).SEGLEFT = s.SEGLEFT := rfl
@[simp] theorem finish_FINAL (o : CmdOutcome) : (finish o s).FINAL = s.FINAL := rfl
@[simp] theorem finish_IDX (o : CmdOutcome) : (finish o s).IDX = s.IDX := rfl
@[simp] theorem finish_CR2_BASE (o : CmdOutcome) : (finish o s).CR2_BASE = s.CR2_BASE := rfl
@[simp] theorem finish_TMP (o : CmdOutcome) : (finish o s).TMP = s.TMP := rfl
@[simp] theorem finish_POLLCNT (o : CmdOutcome) : (finish o s).POLLCNT = s.POLLCNT := rfl
@[simp] theorem finish_OUTCOME (o : CmdOutcome) : (finish o s).OUTCOME = o := rfl
@[simp] theorem finish_RES_TIMINGR (o : CmdOutcome) : (finish o s).RES_TIMINGR = s.RES_TIMINGR := rfl
@[simp] theorem finish_cmdQueue (o : CmdOutcome) : (finish o s).cmdQueue = s.cmdQueue := rfl
@[simp] theorem finish_payload (o : CmdOutcome) : (finish o s).payload = s.payload := rfl
@[simp] theorem finish_rst (o : CmdOutcome) : (finish o s).rst = s.rst := rfl
@[simp] theorem finish_calcGrade (o : CmdOutcome) : (finish o s).calcGrade = s.calcGrade := rfl
@[simp] theorem finish_replies (o : CmdOutcome) : (finish o s).replies = s.replies := rfl
@[simp] theorem finish_busStall (o : CmdOutcome) : (finish o s).busStall = s.busStall := rfl
@[simp] theorem finish_events (o : CmdOutcome) : (finish o s).events = s.events := rfl
@[simp] theorem finish_draws (o : CmdOutcome) : (finish o s).draws = s.draws := rfl
@[simp] theorem finish_cfg (o : CmdOutcome) : (finish o s).cfg = s.cfg := rfl

/-! ## segStart -/

@[simp] theorem segStart_STATE : (segStart s).STATE = s.STATE := rfl
@[simp] theorem segStart_OP : (segStart s).OP = s.OP := rfl
@[simp] theorem segStart_INST : (segStart s).INST = s.INST := rfl
@[simp] theorem segStart_GRADE : (segStart s).GRADE = s.GRADE := rfl
@[simp] theorem segStart_ADDR : (segStart s).ADDR = s.ADDR := rfl
@[simp] theorem segStart_LEN : (segStart s).LEN = s.LEN := rfl
@[simp] theorem segStart_REM : (segStart s).REM = s.REM - BitVec.ofNat 32 (segLen s.REM) := rfl
@[simp] theorem segStart_SEGLEFT : (segStart s).SEGLEFT = BitVec.ofNat 8 (segLen s.REM) := rfl
@[simp] theorem segStart_FINAL : (segStart s).FINAL = segFinal s.REM := rfl
@[simp] theorem segStart_IDX : (segStart s).IDX = s.IDX := rfl
@[simp] theorem segStart_CR2_BASE : (segStart s).CR2_BASE = s.CR2_BASE := rfl
@[simp] theorem segStart_TMP : (segStart s).TMP = s.TMP := rfl
@[simp] theorem segStart_POLLCNT : (segStart s).POLLCNT = s.POLLCNT := rfl
@[simp] theorem segStart_OUTCOME : (segStart s).OUTCOME = s.OUTCOME := rfl
@[simp] theorem segStart_RES_TIMINGR : (segStart s).RES_TIMINGR = s.RES_TIMINGR := rfl
@[simp] theorem segStart_cmdQueue : (segStart s).cmdQueue = s.cmdQueue := rfl
@[simp] theorem segStart_payload : (segStart s).payload = s.payload := rfl
@[simp] theorem segStart_rst : (segStart s).rst = s.rst := rfl
@[simp] theorem segStart_calcGrade : (segStart s).calcGrade = s.calcGrade := rfl
@[simp] theorem segStart_replies : (segStart s).replies = s.replies := rfl
@[simp] theorem segStart_busStall : (segStart s).busStall = s.busStall := rfl
@[simp] theorem segStart_events : (segStart s).events = s.events := rfl
@[simp] theorem segStart_draws : (segStart s).draws = s.draws := rfl
@[simp] theorem segStart_cfg : (segStart s).cfg = s.cfg := rfl

/-! ## resetRegs -/

@[simp] theorem resetRegs_STATE : (resetRegs s).STATE = .IDLE := rfl
@[simp] theorem resetRegs_OP : (resetRegs s).OP = 0#2 := rfl
@[simp] theorem resetRegs_INST : (resetRegs s).INST = 0#2 := rfl
@[simp] theorem resetRegs_GRADE : (resetRegs s).GRADE = 0#2 := rfl
@[simp] theorem resetRegs_ADDR : (resetRegs s).ADDR = 0#16 := rfl
@[simp] theorem resetRegs_LEN : (resetRegs s).LEN = 0#32 := rfl
@[simp] theorem resetRegs_REM : (resetRegs s).REM = 0#32 := rfl
@[simp] theorem resetRegs_SEGLEFT : (resetRegs s).SEGLEFT = 0#8 := rfl
@[simp] theorem resetRegs_FINAL : (resetRegs s).FINAL = false := rfl
@[simp] theorem resetRegs_IDX : (resetRegs s).IDX = 0#32 := rfl
@[simp] theorem resetRegs_CR2_BASE : (resetRegs s).CR2_BASE = 0#32 := rfl
@[simp] theorem resetRegs_TMP : (resetRegs s).TMP = 0#32 := rfl
@[simp] theorem resetRegs_POLLCNT : (resetRegs s).POLLCNT = 0#32 := rfl
@[simp] theorem resetRegs_OUTCOME : (resetRegs s).OUTCOME = .NONE := rfl
@[simp] theorem resetRegs_RES_TIMINGR : (resetRegs s).RES_TIMINGR = 0#32 := rfl
@[simp] theorem resetRegs_cmdQueue : (resetRegs s).cmdQueue = s.cmdQueue := rfl
@[simp] theorem resetRegs_payload : (resetRegs s).payload = s.payload := rfl
@[simp] theorem resetRegs_rst : (resetRegs s).rst = s.rst := rfl
@[simp] theorem resetRegs_calcGrade : (resetRegs s).calcGrade = s.calcGrade := rfl
@[simp] theorem resetRegs_replies : (resetRegs s).replies = s.replies := rfl
@[simp] theorem resetRegs_busStall : (resetRegs s).busStall = s.busStall := rfl
@[simp] theorem resetRegs_events : (resetRegs s).events = s.events := rfl
@[simp] theorem resetRegs_draws : (resetRegs s).draws = s.draws := rfl
@[simp] theorem resetRegs_cfg : (resetRegs s).cfg = s.cfg := rfl

end Sys2Proof.Machine
end

