-- ==== Sys2Proof/Laws/Ops.lean ====
section
/-! SUPPORT. One lemma per shared operation and per FSM state that says once everything it can do. -/

namespace Sys2Proof.Machine

variable {s t u : State}

/-! ## Bus steps and instances -/

theorem busStep_next : busStep s t = .next u ↔ s.busStall = false ∧ u = t := by
  unfold busStep
  cases s.busStall <;> simp [eq_comm]

@[simp] theorem busStep_live (h : s.busStall = false) : busStep s t = .next t := by
  simp [busStep, h]

theorem busStep_stalled (h : s.busStall = true) : busStep s t = .fault .busAccessNeverCompletes := by
  simp [busStep, h]

theorem onInstance_next {k : Instance → Result} :
    onInstance s k = .next u ↔ ∃ x, instanceOf s.cfg s.INST = some x ∧ k x = .next u := by
  unfold onInstance
  cases instanceOf s.cfg s.INST <;> simp

@[simp] theorem onInstance_some {k : Instance → Result} {x : Instance} (h : instanceOf s.cfg s.INST = some x) :
    onInstance s k = k x := by
  simp [onInstance, h]

theorem instanceOf_isSome {c : Config} {i : BitVec 2} : (∃ x, instanceOf c i = some x) ↔ i.toNat < c.ninst := by
  simp [instanceOf, Config.ninst, List.getElem?_eq_some_iff]

theorem instanceOf_mem {c : Config} {i : BitVec 2} {x : Instance} (h : instanceOf c i = some x) : x ∈ c.instances :=
  List.mem_of_getElem? h

/-! ## Accepting a command -/

theorem present_idle {d : State → State} (h : s.STATE = .IDLE) : present s d = .next (d (takeCommand s)) := by
  simp [present, h]

theorem present_busy {d : State → State} (h : s.STATE ≠ .IDLE) : present s d = sequencerStep s := by
  simp [present, h]

/-- While BUSY a presented command changes nothing: the running one makes its step. -/
theorem exec_busy (i : Instr) (h : s.STATE ≠ .IDLE) : exec i s = sequencerStep s := by
  cases i <;> exact present_busy h

theorem exec_calc (g : Grade) (h : s.STATE = .IDLE) : exec (.calculate g) s = .next (dispatchCalc g (takeCommand s)) :=
  present_idle h

theorem exec_init (i : BitVec 2) (g : Grade) (h : s.STATE = .IDLE) :
    exec (.init i g) s = .next (dispatchInit i g (takeCommand s)) :=
  present_idle h

theorem exec_write (i : BitVec 2) (a : BitVec 16) (n : BitVec 32) (h : s.STATE = .IDLE) :
    exec (.write i a n) s = .next (dispatchWrite i a n (takeCommand s)) :=
  present_idle h

theorem exec_reserved (d : Desc) (h : s.STATE = .IDLE) :
    exec (.reserved d) s = .next (dispatchReserved d (takeCommand s)) :=
  present_idle h

/-- Everything a command presented in IDLE can do. -/
theorem exec_idle_cases {i : Instr} (h0 : s.STATE = .IDLE) (h : exec i s = .next t) :
    (∃ g, i = .calculate g ∧ t = dispatchCalc g (takeCommand s))
      ∨ (∃ a g, i = .init a g ∧ t = dispatchInit a g (takeCommand s))
      ∨ (∃ a b n, i = .write a b n ∧ t = dispatchWrite a b n (takeCommand s))
      ∨ (∃ d, i = .reserved d ∧ t = dispatchReserved d (takeCommand s)) := by
  cases i
  · rw [exec_calc _ h0] at h; cases h; simp
  · rw [exec_init _ _ h0] at h; cases h; simp
  · rw [exec_write _ _ _ h0] at h; cases h; simp
  · rw [exec_reserved _ h0] at h; cases h; simp

/-! ## One step -/

theorem step_rst (hc : configOk s.cfg = true) (hr : s.rst = true) : step s = .next (resetRegs s) := by
  simp [step, hc, hr]

theorem step_presented {c : Command} {cs : List Command} (hc : configOk s.cfg = true) (hr : s.rst = false)
    (hq : s.cmdQueue = c :: cs) : step s = exec (decode s.cfg.ninst c.desc) s := by
  simp [step, hc, hr, presented, hq]

theorem step_quiet (hc : configOk s.cfg = true) (hr : s.rst = false) (hq : s.cmdQueue = []) :
    step s = sequencerStep s := by
  simp [step, hc, hr, presented, hq]

/-- Busy and not reset, a step is the sequencer's, whatever the command port holds. -/
theorem step_busy (hc : configOk s.cfg = true) (hr : s.rst = false) (hb : s.STATE ≠ .IDLE) :
    step s = sequencerStep s := by
  simp only [step, hc, hr]
  cases presented s <;> simp [exec_busy _ hb]

/-- Everything a step that answers a next state can be: a reset, the dispatch of the presented command from IDLE, or the
sequencer's own step. -/
theorem step_next_cases (h : step s = .next t) : configOk s.cfg = true ∧
    ((s.rst = true ∧ t = resetRegs s)
      ∨ (s.rst = false ∧ s.STATE = .IDLE ∧ ∃ i, presented s = some i ∧ exec i s = .next t)
      ∨ (s.rst = false ∧ (s.STATE = .IDLE → presented s = none) ∧ sequencerStep s = .next t)) := by
  unfold step at h
  split at h
  case isFalse => cases h
  case isTrue hc =>
    refine ⟨hc, ?_⟩
    split at h
    case isTrue hr => exact .inl ⟨hr, by simpa [eq_comm] using h⟩
    case isFalse hr =>
      have hr' : s.rst = false := by simpa using hr
      split at h
      case h_1 i hi =>
        by_cases hb : s.STATE = .IDLE
        · exact .inr (.inl ⟨hr', hb, i, hi, h⟩)
        · exact .inr (.inr ⟨hr', fun h => absurd h hb, by rwa [exec_busy i hb] at h⟩)
      case h_2 hn => exact .inr (.inr ⟨hr', fun _ => hn, h⟩)

/-! ## The sequencer, state by state -/

section Sequencer
variable {x : Instance}

theorem sequencer_IDLE (h : s.STATE = .IDLE) : sequencerStep s = .next s := by
  simp [sequencerStep, h]

theorem sequencer_I_RST_RD1 (h : s.STATE = .I_RST_RD1) (hb : s.busStall = false) :
    sequencerStep s = .next { afterRead s.cfg.rccApb1Rstr s with TMP := answer s, STATE := .I_RST_SET } := by
  simp [sequencerStep, h, stepIRstRd1, hb]

theorem sequencer_I_RST_SET (h : s.STATE = .I_RST_SET) (hb : s.busStall = false)
    (hx : instanceOf s.cfg s.INST = some x) :
    sequencerStep s
      = .next { afterWrite s.cfg.rccApb1Rstr (s.TMP ||| bitMask x.rstBit) s with STATE := .I_RST_RD2 } := by
  simp [sequencerStep, h, stepIRstSet, hb, hx]

theorem sequencer_I_RST_RD2 (h : s.STATE = .I_RST_RD2) (hb : s.busStall = false) :
    sequencerStep s = .next { afterRead s.cfg.rccApb1Rstr s with TMP := answer s, STATE := .I_RST_CLR } := by
  simp [sequencerStep, h, stepIRstRd2, hb]

theorem sequencer_I_RST_CLR (h : s.STATE = .I_RST_CLR) (hb : s.busStall = false)
    (hx : instanceOf s.cfg s.INST = some x) :
    sequencerStep s = .next { afterWrite s.cfg.rccApb1Rstr (s.TMP &&& ~~~bitMask x.rstBit) s with
      STATE := if s.cfg.legacyOrLoad then .I_TIM_RD else .I_TIM_WR } := by
  simp [sequencerStep, h, stepIRstClr, hb, hx]

theorem sequencer_I_TIM_RD (h : s.STATE = .I_TIM_RD) (hb : s.busStall = false)
    (hx : instanceOf s.cfg s.INST = some x) :
    sequencerStep s = .next { afterRead (addrTimingr s.cfg x) s with TMP := answer s, STATE := .I_TIM_WR } := by
  simp [sequencerStep, h, stepITimRd, hb, hx]

theorem sequencer_I_TIM_WR (h : s.STATE = .I_TIM_WR) (hb : s.busStall = false)
    (hx : instanceOf s.cfg s.INST = some x) :
    sequencerStep s = .next { afterWrite (addrTimingr s.cfg x) (timingLoad s) s with
      RES_TIMINGR := timingLoad s, STATE := .I_PE_RD } := by
  simp [sequencerStep, h, stepITimWr, hb, hx]

theorem sequencer_I_PE_RD (h : s.STATE = .I_PE_RD) (hb : s.busStall = false)
    (hx : instanceOf s.cfg s.INST = some x) :
    sequencerStep s = .next { afterRead (addrCr1 s.cfg x) s with TMP := answer s, STATE := .I_PE_WR } := by
  simp [sequencerStep, h, stepIPeRd, hb, hx]

theorem sequencer_I_PE_WR (h : s.STATE = .I_PE_WR) (hb : s.busStall = false)
    (hx : instanceOf s.cfg s.INST = some x) :
    sequencerStep s
      = .next (finish .COMPLETE (afterWrite (addrCr1 s.cfg x) (s.TMP ||| bitMask s.cfg.peBit) s)) := by
  simp [sequencerStep, h, stepIPeWr, hb, hx]

theorem sequencer_W_ADDR (h : s.STATE = .W_ADDR) (hb : s.busStall = false)
    (hx : instanceOf s.cfg s.INST = some x) :
    sequencerStep s = .next { afterWrite (addrCr2 s.cfg x) s.CR2_BASE s with STATE := .W_SEG } := by
  simp [sequencerStep, h, stepWAddr, hb, hx]

/-- The state W_SEG leaves once its register writes are made, but for the successor (R134). -/
def segStarted (x : Instance) (s : State) : State :=
  segStart (afterWrite (addrCr2 s.cfg x) (segWord s.cfg s.CR2_BASE (segLen s.REM) (segFinal s.REM)) s)

theorem sequencer_W_SEG (h : s.STATE = .W_SEG) (hb : s.busStall = false)
    (hx : instanceOf s.cfg s.INST = some x) :
    sequencerStep s = .next (if segLen s.REM = 0 then finish .COMPLETE (segStarted x s)
      else { segStarted x s with STATE := .W_NACK }) := by
  simp [sequencerStep, h, stepWSeg, hb, hx, segStarted]

theorem sequencer_W_NACK (h : s.STATE = .W_NACK) (hb : s.busStall = false)
    (hx : instanceOf s.cfg s.INST = some x) :
    sequencerStep s = .next (if nackfOf s.cfg (answer s) then finish .ABORTED_NACK (afterRead (addrIsr s.cfg x) s)
      else { afterRead (addrIsr s.cfg x) s with POLLCNT := 0#32, STATE := .W_TXE }) := by
  simp [sequencerStep, h, stepWNack, hb, hx]

theorem sequencer_W_TXE (h : s.STATE = .W_TXE) (hb : s.busStall = false)
    (hx : instanceOf s.cfg s.INST = some x) :
    sequencerStep s = .next (
      if txeOf s.cfg (answer s) then { afterRead (addrIsr s.cfg x) s with STATE := .W_DATA }
      else if pollExpired s.cfg s.POLLCNT then finish .TIMEOUT (afterRead (addrIsr s.cfg x) s)
      else { afterRead (addrIsr s.cfg x) s with POLLCNT := pollNext s.POLLCNT, STATE := .W_TXE }) := by
  simp [sequencerStep, h, stepWTxe, hb, hx]

/-- The state W_DATA leaves once its byte is written and the counters moved, but for the successor (R139). -/
def byteSent (x : Instance) (s : State) : State :=
  { afterWrite (addrTxdr s.cfg x) ((payByte s.IDX s).setWidth 32) (afterPayRead s.IDX s) with
    IDX := s.IDX + 1#32
    SEGLEFT := s.SEGLEFT - 1#8 }

theorem sequencer_W_DATA (h : s.STATE = .W_DATA) (hb : s.busStall = false)
    (hx : instanceOf s.cfg s.INST = some x) :
    sequencerStep s = .next (
      if s.SEGLEFT - 1#8 ≠ 0#8 then { byteSent x s with STATE := .W_NACK }
      else if s.FINAL then finish .COMPLETE (byteSent x s)
      else { byteSent x s with STATE := .W_SEG }) := by
  simp [sequencerStep, h, stepWData, hb, hx, byteSent]

/-- A busy step that answers a next state found the bus live. -/
theorem sequencer_next_live (hb : s.STATE ≠ .IDLE) (h : sequencerStep s = .next t) : s.busStall = false := by
  unfold sequencerStep at h
  split at h <;> first
    | contradiction
    | (simp only [stepIRstRd1, stepIRstRd2] at h; exact (busStep_next.1 h).1)
    | (simp only [stepIRstSet, stepIRstClr, stepITimRd, stepITimWr, stepIPeRd, stepIPeWr, stepWAddr, stepWSeg,
        stepWNack, stepWTxe, stepWData] at h
       obtain ⟨_, _, h⟩ := onInstance_next.1 h
       exact (busStep_next.1 h).1)

/-- A step of a busy state that needs its instance found one. -/
theorem sequencer_next_instance (h1 : s.STATE ≠ .IDLE) (h2 : s.STATE ≠ .I_RST_RD1) (h3 : s.STATE ≠ .I_RST_RD2)
    (h : sequencerStep s = .next t) : ∃ x, instanceOf s.cfg s.INST = some x := by
  unfold sequencerStep at h
  split at h <;> first
    | contradiction
    | (simp only [stepIRstSet, stepIRstClr, stepITimRd, stepITimWr, stepIPeRd, stepIPeWr, stepWAddr, stepWSeg,
        stepWNack, stepWTxe, stepWData] at h
       obtain ⟨x, hx, _⟩ := onInstance_next.1 h
       exact ⟨x, hx⟩)

/-- Everything a sequencer step that answers a next state can be, one constructor per way a state's rule can go. -/
inductive SeqNext (s : State) : State → Prop where
  | idle (h : s.STATE = .IDLE) : SeqNext s s
  | rstRd1 (h : s.STATE = .I_RST_RD1) (hb : s.busStall = false) :
    SeqNext s { afterRead s.cfg.rccApb1Rstr s with TMP := answer s, STATE := .I_RST_SET }
  | rstSet {x : Instance} (h : s.STATE = .I_RST_SET) (hb : s.busStall = false) (hx : instanceOf s.cfg s.INST = some x) :
    SeqNext s { afterWrite s.cfg.rccApb1Rstr (s.TMP ||| bitMask x.rstBit) s with STATE := .I_RST_RD2 }
  | rstRd2 (h : s.STATE = .I_RST_RD2) (hb : s.busStall = false) :
    SeqNext s { afterRead s.cfg.rccApb1Rstr s with TMP := answer s, STATE := .I_RST_CLR }
  | rstClr {x : Instance} (h : s.STATE = .I_RST_CLR) (hb : s.busStall = false) (hx : instanceOf s.cfg s.INST = some x) :
    SeqNext s { afterWrite s.cfg.rccApb1Rstr (s.TMP &&& ~~~bitMask x.rstBit) s with
      STATE := if s.cfg.legacyOrLoad then .I_TIM_RD else .I_TIM_WR }
  | timRd {x : Instance} (h : s.STATE = .I_TIM_RD) (hb : s.busStall = false) (hx : instanceOf s.cfg s.INST = some x) :
    SeqNext s { afterRead (addrTimingr s.cfg x) s with TMP := answer s, STATE := .I_TIM_WR }
  | timWr {x : Instance} (h : s.STATE = .I_TIM_WR) (hb : s.busStall = false) (hx : instanceOf s.cfg s.INST = some x) :
    SeqNext s { afterWrite (addrTimingr s.cfg x) (timingLoad s) s with RES_TIMINGR := timingLoad s, STATE := .I_PE_RD }
  | peRd {x : Instance} (h : s.STATE = .I_PE_RD) (hb : s.busStall = false) (hx : instanceOf s.cfg s.INST = some x) :
    SeqNext s { afterRead (addrCr1 s.cfg x) s with TMP := answer s, STATE := .I_PE_WR }
  | peWr {x : Instance} (h : s.STATE = .I_PE_WR) (hb : s.busStall = false) (hx : instanceOf s.cfg s.INST = some x) :
    SeqNext s (finish .COMPLETE (afterWrite (addrCr1 s.cfg x) (s.TMP ||| bitMask s.cfg.peBit) s))
  | addr {x : Instance} (h : s.STATE = .W_ADDR) (hb : s.busStall = false) (hx : instanceOf s.cfg s.INST = some x) :
    SeqNext s { afterWrite (addrCr2 s.cfg x) s.CR2_BASE s with STATE := .W_SEG }
  | segEmpty {x : Instance} (h : s.STATE = .W_SEG) (hb : s.busStall = false) (hx : instanceOf s.cfg s.INST = some x)
    (hn : segLen s.REM = 0) : SeqNext s (finish .COMPLETE (segStarted x s))
  | segBytes {x : Instance} (h : s.STATE = .W_SEG) (hb : s.busStall = false) (hx : instanceOf s.cfg s.INST = some x)
    (hn : segLen s.REM ≠ 0) : SeqNext s { segStarted x s with STATE := .W_NACK }
  | nacked {x : Instance} (h : s.STATE = .W_NACK) (hb : s.busStall = false) (hx : instanceOf s.cfg s.INST = some x)
    (hn : nackfOf s.cfg (answer s) = true) : SeqNext s (finish .ABORTED_NACK (afterRead (addrIsr s.cfg x) s))
  | notNacked {x : Instance} (h : s.STATE = .W_NACK) (hb : s.busStall = false) (hx : instanceOf s.cfg s.INST = some x)
    (hn : nackfOf s.cfg (answer s) = false) :
    SeqNext s { afterRead (addrIsr s.cfg x) s with POLLCNT := 0#32, STATE := .W_TXE }
  | txeReady {x : Instance} (h : s.STATE = .W_TXE) (hb : s.busStall = false) (hx : instanceOf s.cfg s.INST = some x)
    (hr : txeOf s.cfg (answer s) = true) : SeqNext s { afterRead (addrIsr s.cfg x) s with STATE := .W_DATA }
  | txeTimeout {x : Instance} (h : s.STATE = .W_TXE) (hb : s.busStall = false) (hx : instanceOf s.cfg s.INST = some x)
    (hr : txeOf s.cfg (answer s) = false) (hp : pollExpired s.cfg s.POLLCNT = true) :
    SeqNext s (finish .TIMEOUT (afterRead (addrIsr s.cfg x) s))
  | txeWait {x : Instance} (h : s.STATE = .W_TXE) (hb : s.busStall = false) (hx : instanceOf s.cfg s.INST = some x)
    (hr : txeOf s.cfg (answer s) = false) (hp : pollExpired s.cfg s.POLLCNT = false) :
    SeqNext s { afterRead (addrIsr s.cfg x) s with POLLCNT := pollNext s.POLLCNT, STATE := .W_TXE }
  | dataByte {x : Instance} (h : s.STATE = .W_DATA) (hb : s.busStall = false) (hx : instanceOf s.cfg s.INST = some x)
    (hl : s.SEGLEFT - 1#8 ≠ 0#8) : SeqNext s { byteSent x s with STATE := .W_NACK }
  | dataLast {x : Instance} (h : s.STATE = .W_DATA) (hb : s.busStall = false) (hx : instanceOf s.cfg s.INST = some x)
    (hl : s.SEGLEFT - 1#8 = 0#8) (hf : s.FINAL = true) : SeqNext s (finish .COMPLETE (byteSent x s))
  | dataSeg {x : Instance} (h : s.STATE = .W_DATA) (hb : s.busStall = false) (hx : instanceOf s.cfg s.INST = some x)
    (hl : s.SEGLEFT - 1#8 = 0#8) (hf : s.FINAL = false) : SeqNext s { byteSent x s with STATE := .W_SEG }

/-- The inversion of a sequencer step. -/
theorem sequencer_next (h : sequencerStep s = .next t) : SeqNext s t := by
  by_cases hi : s.STATE = .IDLE
  · rw [sequencer_IDLE hi] at h; cases h; exact .idle hi
  have hb := sequencer_next_live hi h
  by_cases h1 : s.STATE = .I_RST_RD1
  · rw [sequencer_I_RST_RD1 h1 hb] at h; cases h; exact .rstRd1 h1 hb
  by_cases h2 : s.STATE = .I_RST_RD2
  · rw [sequencer_I_RST_RD2 h2 hb] at h; cases h; exact .rstRd2 h2 hb
  obtain ⟨x, hx⟩ := sequencer_next_instance hi h1 h2 h
  cases hs : s.STATE
  case IDLE => exact absurd hs hi
  case I_RST_RD1 => exact absurd hs h1
  case I_RST_RD2 => exact absurd hs h2
  case I_RST_SET => rw [sequencer_I_RST_SET hs hb hx] at h; cases h; exact .rstSet hs hb hx
  case I_RST_CLR => rw [sequencer_I_RST_CLR hs hb hx] at h; cases h; exact .rstClr hs hb hx
  case I_TIM_RD => rw [sequencer_I_TIM_RD hs hb hx] at h; cases h; exact .timRd hs hb hx
  case I_TIM_WR => rw [sequencer_I_TIM_WR hs hb hx] at h; cases h; exact .timWr hs hb hx
  case I_PE_RD => rw [sequencer_I_PE_RD hs hb hx] at h; cases h; exact .peRd hs hb hx
  case I_PE_WR => rw [sequencer_I_PE_WR hs hb hx] at h; cases h; exact .peWr hs hb hx
  case W_ADDR => rw [sequencer_W_ADDR hs hb hx] at h; cases h; exact .addr hs hb hx
  case W_SEG =>
    rw [sequencer_W_SEG hs hb hx] at h
    cases h
    split
    · exact .segEmpty hs hb hx ‹_›
    · exact .segBytes hs hb hx ‹_›
  case W_NACK =>
    rw [sequencer_W_NACK hs hb hx] at h
    cases h
    split
    · exact .nacked hs hb hx ‹_›
    · rename_i hn
      exact .notNacked hs hb hx (by simpa using hn)
  case W_TXE =>
    rw [sequencer_W_TXE hs hb hx] at h
    cases h
    split
    · exact .txeReady hs hb hx ‹_›
    · rename_i hr
      have hr : txeOf s.cfg (answer s) = false := by simpa using hr
      split
      · exact .txeTimeout hs hb hx hr ‹_›
      · rename_i hp
        exact .txeWait hs hb hx hr (by simpa using hp)
  case W_DATA =>
    rw [sequencer_W_DATA hs hb hx] at h
    cases h
    split
    · exact .dataByte hs hb hx ‹_›
    · rename_i hl
      have hl : s.SEGLEFT - 1#8 = 0#8 := by simpa using hl
      split
      · exact .dataLast hs hb hx hl ‹_›
      · rename_i hf
        exact .dataSeg hs hb hx hl (by simpa using hf)

end Sequencer

/-! ## The free values -/

@[simp] theorem answer_cons {v : Word} {vs : List Word} (h : s.replies = v :: vs) : answer s = v := by
  simp [answer, h]

theorem payByte_below {i : BitVec 32} (h : i.toNat < s.payload.length) : payByte i s = s.payload[i.toNat] := by
  simp [payByte, h]

theorem afterPayRead_below {i : BitVec 32} (h : i.toNat < s.payload.length) : afterPayRead i s = s := by
  simp [afterPayRead, Nat.not_le.2 h]

theorem afterRead_cons {a : Word} {v : Word} {vs : List Word} (h : s.replies = v :: vs) :
    afterRead a s = { s with replies := vs, events := s.events ++ [.rd a v] } := by
  simp [afterRead, answer, h]

/-! ## Segments (R134, R145) -/

theorem segLen_le_segMax (r : BitVec 32) : segLen r ≤ 255 := Nat.min_le_right _ _

theorem segLen_le_toNat (r : BitVec 32) : segLen r ≤ r.toNat := Nat.min_le_left _ _

theorem segFinal_iff (r : BitVec 32) : segFinal r = true ↔ r.toNat ≤ 255 := by
  unfold segFinal
  exact decide_eq_true_iff

/-- The bytes left after a segment is started: the subtraction never wraps. -/
theorem segLen_sub_toNat (r : BitVec 32) : (r - BitVec.ofNat 32 (segLen r)).toNat = r.toNat - segLen r := by
  have h1 := segLen_le_segMax r
  have h2 := segLen_le_toNat r
  have h3 := r.isLt
  rw [BitVec.toNat_sub]
  simp
  omega

/-! ## Poll counter (R137, R145) -/

theorem pollNext_toNat (p : BitVec 32) : (pollNext p).toNat = min (p.toNat + 1) (2 ^ 32 - 1) := by
  simp only [pollNext, BitVec.toNat_ofNat]
  exact Nat.mod_eq_of_lt (by omega)

theorem pollExpired_iff (c : Config) (p : BitVec 32) :
    pollExpired c p = true ↔ c.pollLimit ≠ 0#32 ∧ c.pollLimit.toNat ≤ p.toNat + 1 := by
  simp [pollExpired]

end Sys2Proof.Machine
end

