-- ==== Sys2Proof/Laws/Events.lean ====
section
/-! SUPPORT. What the bus events of a whole WRITE are: their number, and the words they write to CR2 and to TXDR. -/

namespace Sys2Proof.Safety

open Sys2Proof.Machine

variable {c : Config} {x : Instance} {base a : Word}

/-! ## Words written -/

@[simp] theorem writesAt_nil : writesAt a [] = [] := rfl

@[simp] theorem writesAt_append (es fs : List BusEvent) : writesAt a (es ++ fs) = writesAt a es ++ writesAt a fs := by
  simp [writesAt]

@[simp] theorem writesAt_wr (b v : Word) (es : List BusEvent) :
    writesAt a (.wr b v :: es) = (if b = a then [v] else []) ++ writesAt a es := by
  by_cases h : b = a <;> simp [writesAt, h]

@[simp] theorem writesAt_reads (b : Word) (rs : List Word) : writesAt a (rs.map fun r => .rd b r) = [] := by
  simp [writesAt, List.filterMap_map]

/-! ## The events of one byte and of one segment start -/

@[simp] theorem ByteRun.events_length (b : ByteRun) : (b.events c x).length = b.waits.length + 3 := by
  simp [ByteRun.events, ByteRun.answers]

theorem ByteRun.writesAt_cr2 (b : ByteRun) (h : x.base + c.offCr2 ≠ x.base + c.offTxdr) :
    writesAt (x.base + c.offCr2) (b.events c x) = [] := by
  simp [ByteRun.events, h.symm]

theorem ByteRun.writesAt_txdr (b : ByteRun) :
    writesAt (x.base + c.offTxdr) (b.events c x) = [b.byte.setWidth 32] := by
  simp [ByteRun.events]

theorem segmentEvent_start {n j : Nat} (h : j % 255 = 0) : segmentEvent c x base n j =
    [.wr (x.base + c.offCr2) (segWord c base (min (n - j) 255) (decide (n - j ≤ 255)))] := by
  simp [segmentEvent, h]

theorem segmentEvent_inside {n j : Nat} (h : j % 255 ≠ 0) : segmentEvent c x base n j = [] := by
  simp [segmentEvent, h]

theorem segmentEvent_writesAt_txdr {n j : Nat} (h : x.base + c.offCr2 ≠ x.base + c.offTxdr) :
    writesAt (x.base + c.offTxdr) (segmentEvent c x base n j) = [] := by
  by_cases hj : j % 255 = 0
  · simp [segmentEvent_start hj, h]
  · simp [segmentEvent_inside hj]

/-! ## The events of the bytes from the `j`-th on -/

/-- The segments that start from byte `j` of `n` on. -/
def startsFrom (n j : Nat) : Nat := (n + 254) / 255 - (j + 254) / 255

theorem startsFrom_start {n j : Nat} (h : j % 255 = 0) (hj : j < n) : startsFrom n j = startsFrom n (j + 1) + 1 := by
  unfold startsFrom; omega

theorem startsFrom_inside {n j : Nat} (h : j % 255 ≠ 0) : startsFrom n j = startsFrom n (j + 1) := by
  unfold startsFrom; omega

theorem bytesEvents_length {n : Nat} (bs : List ByteRun) : ∀ j, j + bs.length = n →
    (bytesEvents c x base n j bs).length
      = startsFrom n j + 3 * bs.length + (bs.map fun b => b.waits.length).sum := by
  induction bs with
  | nil => intro j hj; simp [bytesEvents, startsFrom, ← hj]
  | cons b bs ih =>
    intro j hj
    have hj : j + 1 + bs.length = n := by simp only [List.length_cons] at hj; omega
    simp only [bytesEvents, List.length_append, ih (j + 1) hj, ByteRun.events_length, List.length_cons, List.map_cons,
      List.sum_cons]
    by_cases h : j % 255 = 0
    · rw [segmentEvent_start h, startsFrom_start h (by omega), List.length_singleton]; omega
    · rw [segmentEvent_inside h, startsFrom_inside h, List.length_nil]; omega

theorem bytesEvents_writesAt_txdr {n : Nat} (h : x.base + c.offCr2 ≠ x.base + c.offTxdr) (bs : List ByteRun) : ∀ j,
    writesAt (x.base + c.offTxdr) (bytesEvents c x base n j bs) = bs.map fun b => b.byte.setWidth 32 := by
  induction bs with
  | nil => intro j; rfl
  | cons b bs ih =>
    intro j
    simp [bytesEvents, segmentEvent_writesAt_txdr h, ByteRun.writesAt_txdr, ih]

/-- The segment words of `m` segments, the last of them the final one of `n` bytes. -/
def segmentWords (c : Config) (base : Word) (n : Nat) : Nat → List Word
  | 0 => []
  | m + 1 => List.replicate m (segWord c base 255 false) ++ [segWord c base (n - 255 * (nseg n - 1)) true]

theorem bytesEvents_writesAt_cr2 {n : Nat} (h : x.base + c.offCr2 ≠ x.base + c.offTxdr) (bs : List ByteRun) : ∀ j,
    j + bs.length = n →
    writesAt (x.base + c.offCr2) (bytesEvents c x base n j bs) = segmentWords c base n (startsFrom n j) := by
  induction bs with
  | nil => intro j hj; simp [bytesEvents, startsFrom, ← hj, segmentWords]
  | cons b bs ih =>
    intro j hj
    have hj : j + 1 + bs.length = n := by simp only [List.length_cons] at hj; omega
    simp only [bytesEvents, writesAt_append, ih (j + 1) hj, ByteRun.writesAt_cr2 b h, List.append_nil]
    by_cases hs : j % 255 = 0
    · rw [segmentEvent_start hs, startsFrom_start hs (by omega)]
      cases hm : startsFrom n (j + 1) with
      | zero =>
        have hn : n - j ≤ 255 := by unfold startsFrom at hm; omega
        have hseg : n - 255 * (nseg n - 1) = n - j := by
          simp only [startsFrom] at hm
          simp only [nseg, if_neg (by omega : n ≠ 0)]
          omega
        simp [segmentWords, hn, hseg]
      | succ m =>
        have hn : ¬ n - j ≤ 255 := by unfold startsFrom at hm; omega
        have hmin : min (n - j) 255 = 255 := by omega
        simp [segmentWords, hn, hmin, List.replicate_succ]
    · rw [segmentEvent_inside hs, startsFrom_inside hs]
      rfl

/-! ## The events of a whole WRITE (R135, R140, R144, R147) -/

theorem nseg_startsFrom {n : Nat} (h : n ≠ 0) : startsFrom n 0 = nseg n := by
  simp only [startsFrom, nseg, if_neg h]; omega

/-- A WRITE that completes makes one bus event a step. -/
theorem writeEvents_length (bs : List ByteRun) : (writeEvents c x base bs).length = writeSteps bs := by
  unfold writeEvents writeSteps
  split
  case isTrue h => subst h; simp [segmentEvent, nseg]
  case isFalse h =>
    rw [List.length_cons, bytesEvents_length bs 0 (by simp), nseg_startsFrom (by simpa using h)]; omega

theorem writeEvents_writesAt_txdr (h : x.base + c.offCr2 ≠ x.base + c.offTxdr) (bs : List ByteRun) :
    writesAt (x.base + c.offTxdr) (writeEvents c x base bs) = bs.map fun b => b.byte.setWidth 32 := by
  unfold writeEvents
  split
  case isTrue hb => subst hb; simp [segmentEvent_writesAt_txdr h, h]
  case isFalse => simp [bytesEvents_writesAt_txdr h, h]

theorem writeEvents_writesAt_cr2 (h : x.base + c.offCr2 ≠ x.base + c.offTxdr) (bs : List ByteRun) :
    writesAt (x.base + c.offCr2) (writeEvents c x base bs) = base :: segmentWords c base bs.length (nseg bs.length) := by
  unfold writeEvents
  split
  case isTrue hb => subst hb; simp [segmentEvent, segmentWords, nseg]
  case isFalse hb =>
    rw [writesAt_wr, if_pos rfl, bytesEvents_writesAt_cr2 h bs 0 (by simp), nseg_startsFrom (by simpa using hb)]
    rfl

end Sys2Proof.Safety
end

