-- ==== Sys2Proof/Laws/PerInstr.lean ====
section
/-! SUPPORT. Statements made once per constructor of Instr. -/

namespace Sys2Proof.Laws.TableMatch

/-- The match and mask of the command's row in R77. RESERVED's row takes OP = 11 and whatever the other rows leave
(R78), so no one mask describes it and nothing is asked of its bits here. -/
def row : Instr → Desc × Desc
  | .calculate _ => (0x0000000000000000#64, 0xF3FFFFFFFFFFFFFF#64)
  | .init _ _ => (0x4000000000000000#64, 0xC3FFFFFFFFFFFFFF#64)
  | .write _ _ _ => (0x8000000000000000#64, 0xCFFF000000000000#64)
  | .reserved _ => (0#64, 0#64)

/-- The encoded descriptor matches the command's row: `(cmd & mask) = match` (R77). -/
def Statement (i : Instr) : Prop := encode i &&& (row i).2 = (row i).1

theorem calculate (g : Grade) : Statement (.calculate g) := by
  unfold Statement
  cases g <;> decide

theorem init (inst : BitVec 2) (g : Grade) : Statement (.init inst g) := by
  unfold Statement
  cases g <;> revert inst <;> decide

/-- ADDR and LEN lie under the mask's zero bits. -/
theorem write (inst : BitVec 2) (addr : BitVec 16) (len : BitVec 32) : Statement (.write inst addr len) := by
  have hi : ∀ inst : BitVec 2, (2#2 ++ inst ++ 0#2 ++ 0#10 : BitVec 16) &&& 0xCFFF#16 = 0x8000#16 := by decide
  have split : (0xCFFF000000000000#64 : Desc) = (0xCFFF#16 ++ 0#16 ++ 0#32 : BitVec 64) := by decide
  have goal : (0x8000000000000000#64 : Desc) = (0x8000#16 ++ 0#16 ++ 0#32 : BitVec 64) := by decide
  simp only [Statement, row, encode, descOf, split, goal]
  rw [BitVec.and_append, BitVec.and_append, hi, BitVec.and_zero, BitVec.and_zero]

theorem reserved (d : Desc) : Statement (.reserved d) := by
  simp [Statement, row]

end Sys2Proof.Laws.TableMatch
end

