-- ==== Sys2Proof/Tests/Slice0.lean ====
section
/-! SUPPORT. Tests. Expected values are those of spec/95_test_vectors.md and of the tables of 30_encoding.md R82 and
70_reset_and_hazards.md R204, or are worked out by hand from the rules. Then a witness for the hypotheses of every
statement that has some. -/

namespace Sys2Proof.Tests

open Sys2Proof Sys2Proof.Machine Sys2Proof.Safety

/-- The next state, if there is one. -/
def after : Result → Option State
  | .next t => some t
  | .fault _ => none
  | .refused _ => none

/-! ## WellFormed: an ill-formed term for each check -/

theorem test_wf_refuses_init_instance : Instr.wf 3 (.init 3#2 .std) = false := by decide
theorem test_wf_refuses_write_instance : Instr.wf 3 (.write 3#2 0x50#16 1#32) = false := by decide
theorem test_wf_refuses_fewer_instances : Instr.wf 2 (.init 2#2 .std) = false := by decide
/-- CALC STD, INIT I2C1 STD and WRITE I2C1 0x50 1 are no reserved descriptors. -/
theorem test_wf_refuses_valid_as_reserved :
    ([0x0#64, 0x4000000000000000#64, 0x8000005000000001#64].map fun d => Instr.wf 3 (.reserved d)) =
      [false, false, false] := by decide
/-- R78's list, one descriptor for each of its reasons (DEC-15, DEC-7, DEC-5, DEC-6, DEC-4, DEC-11, DEC-9, DEC-10,
DEC-13, DEC-14). -/
theorem test_wf_accepts_reserved :
    ([0xC000000000000000#64, 0x0001000000000000#64, 0x1000000000000000#64, 0x0000000000000001#64, 0x0C00000000000000#64,
      0x4000005000000000#64, 0x7000000000000000#64, 0x4C00000000000000#64, 0x8400005000000001#64,
      0xB000005000000001#64].all fun d => Instr.wf 3 (.reserved d)) = true := by decide

/-! ## Decoding, the words written bit by bit: OP, INST, GRADE, RSV, ADDR, LEN (R70) -/

theorem test_decode_calc :
    decode 3 0b00_00_01_0000000000_0000000000000000_00000000000000000000000000000000#64 = .calculate .fast := by decide
theorem test_decode_init :
    decode 3 0b01_10_10_0000000000_0000000000000000_00000000000000000000000000000000#64 = .init 2#2 .fastPlus := by decide
theorem test_decode_write :
    decode 3 0b10_01_00_0000000000_0000001111111111_00000000000000000000000000000010#64
      = .write 1#2 0x3FF#16 2#32 := by decide
theorem test_decode_reserved :
    decode 3 0b11_00_00_0000000000_0000000000000000_00000000000000000000000000000000#64
      = .reserved 0xC000000000000000#64 := by decide

/-- The reasons of the INVALID answers of vectors DEC-4 to DEC-7, DEC-9 to DEC-11, DEC-13 to DEC-15, DEC-19. -/
theorem test_decode_rejects :
    decodeCmd 3 0x0C00000000000000#64 = .error .gradeReserved ∧
    decodeCmd 3 0x1000000000000000#64 = .error .unusedNonzero ∧
    decodeCmd 3 0x0000000000000001#64 = .error .unusedNonzero ∧
    decodeCmd 3 0x0001000000000000#64 = .error .rsvNonzero ∧
    decodeCmd 3 0x7000000000000000#64 = .error .instReserved ∧
    decodeCmd 3 0x4C00000000000000#64 = .error .gradeReserved ∧
    decodeCmd 3 0x4000005000000000#64 = .error .unusedNonzero ∧
    decodeCmd 3 0x8400005000000001#64 = .error .unusedNonzero ∧
    decodeCmd 3 0xB000005000000001#64 = .error .instReserved ∧
    decodeCmd 3 0xFFFFFFFFFFFFFFFF#64 = .error .opReserved ∧
    decodeCmd 3 0x8001005000000001#64 = .error .rsvNonzero := by decide

/-- DEC-20: INIT I2C3 is reserved where there are two instances. -/
theorem test_decode_ninst :
    decode 2 0x6000000000000000#64 = .reserved 0x6000000000000000#64 ∧
      decode 3 0x6000000000000000#64 = .init 2#2 .std := by decide

/-- The host's table view of the four rows. -/
theorem test_decode_table_word :
    decodeTableWord 64 0 = some (.calculate .std) ∧ decodeTableWord 64 0x4000000000000000 = some (.init 0#2 .std) ∧
      decodeTableWord 64 0x8000000000000000 = some (.write 0#2 0#16 0#32) ∧
      decodeTableWord 64 0xC000000000000000 = some (.reserved 0xC000000000000000#64) := by decide

/-! ## The commands, one step each -/

/-- TC-1 to TC-4. -/
theorem test_calculator_port :
    ([0b00#2, 0b01#2, 0b10#2, 0b11#2].map fun g =>
        let s := { State.reset with calcGrade := g }
        (calcValid s, calcTimingr s)) =
      [(true, 0x10240F13#32), (true, 0x00130309#32), (true, 0x00010306#32), (false, 0x00000000#32)] := by decide

/-- A block in IDLE, just reset, with the descriptor `d` and the payload `p` presented. -/
def presenting (d : Desc) (p : List Byte) : State := { State.reset with cmdQueue := [⟨d, p⟩] }

/-- CALC-2: from RES_TIMINGR = 0x1024_0F13. -/
theorem test_calc_fast :
    ((after (step { presenting 0x0400000000000000#64 [] with RES_TIMINGR := 0x10240F13#32 })).map fun t =>
      (t.RES_TIMINGR, t.OUTCOME, t.STATE, t.events)) = some (0x00130309#32, .COMPLETE, .IDLE, []) := by decide

/-- CALC-4: the reserved CALC leaves RES_TIMINGR and finishes INVALID_COMMAND. -/
theorem test_reserved_calc :
    ((after (step { presenting 0x0C00000000000000#64 [] with RES_TIMINGR := 0x00010306#32 })).map fun t =>
      (t.RES_TIMINGR, t.OUTCOME, t.STATE, t.GRADE)) = some (0x00010306#32, .INVALID_COMMAND, .IDLE, 3#2) := by decide

/-- DEC-16: every field of an all-ones descriptor is latched. -/
theorem test_reserved_latches :
    ((after (step (presenting 0xFFFFFFFFFFFFFFFF#64 []))).map fun t =>
      (t.OP, t.INST, t.GRADE, t.ADDR, t.LEN, t.OUTCOME)) =
      some (3#2, 3#2, 3#2, 0xFFFF#16, 0xFFFFFFFF#32, .INVALID_COMMAND) := by decide

/-- INIT-2, its second event: I2C2's reset bit is set in 0x0002_0000. -/
theorem test_init_reset_bit :
    ((after (step { State.reset with STATE := .I_RST_SET, INST := 1#2, TMP := 0x00020000#32 })).map fun t =>
      (t.events, t.STATE)) = some ([.wr 0x40021010#32 0x00420000#32], .I_RST_RD2) := by decide

/-- INIT-6, its sixth event: the legacy load accumulates. -/
theorem test_init_legacy_load :
    ((after (step { State.reset with
      STATE := .I_TIM_WR, INST := 0#2, GRADE := 1#2, TMP := 0x10240F13#32
      cfg := { Config.default with legacyOrLoad := true } })).map fun t =>
      (t.events, t.RES_TIMINGR)) = some ([.wr 0x40005410#32 0x10370F1B#32], 0x10370F1B#32) := by decide

/-- W-ADDR-3 to W-ADDR-8: the address-phase word at the edges of each range, and no event above 1023. -/
theorem test_write_addresses :
    ([0x7F#16, 0x80#16, 0x3FF#16, 0x400#16, 0xFFFF#16].map fun a =>
      (after (exec (.write 0#2 a 0#32) State.reset)).map fun t => (t.CR2_BASE, t.STATE, t.OUTCOME, t.events)) =
      [some (0x000010FE#32, .W_ADDR, .NONE, []), some (0x00000880#32, .W_ADDR, .NONE, []),
        some (0x00000BFF#32, .W_ADDR, .NONE, []), some (0x00000000#32, .IDLE, .INVALID_ADDRESS, []),
        some (0x00000000#32, .IDLE, .INVALID_ADDRESS, [])] := by decide

/-- S6: the two segment words of a 300-byte write to 0x50, and W-SEG-1's of a zero-length one. -/
theorem test_write_segments :
    ([300#32, 45#32, 0#32].map fun rem =>
      (after (step { State.reset with STATE := .W_SEG, CR2_BASE := 0x000010A0#32, REM := rem })).map fun t =>
        (t.events.getLast?, t.REM, t.SEGLEFT, t.FINAL)) =
      [some (some (.wr 0x40005404#32 0x01FF30A0#32), 45#32, 255#8, false),
        some (some (.wr 0x40005404#32 0x022D30A0#32), 0#32, 45#8, true),
        some (some (.wr 0x40005404#32 0x020030A0#32), 0#32, 0#8, true)] := by decide

/-- R204's table of periods, in nanoseconds. -/
theorem test_periods :
    ([0#2, 1#2, 2#2].map fun g => (timingFields g).map fun f =>
        (periodPresc f, periodScll f, periodSclh f, periodScldel f, periodSdadel f)) =
      [some (250, 5000, 4000, 750, 1000), some (125, 1250, 500, 250, 375), some (125, 875, 500, 125, 125)] := by
  decide

/-! ## The assembler (R80, R81) -/

/-- The two lines of program P4's second command. -/
def p4Lines : List (List Char) :=
  ["WRITE I2C2, 0x3FF, 2".toList, "PAYLOAD 0x11, 0x22".toList]

theorem test_assemble_write : assemble 3 p4Lines = some [⟨0x900003FF00000002#64, [0x11#8, 0x22#8]⟩] := by decide
theorem test_assemble_send :
    assemble 3 ["SEND I2C2, 1023, 0x11, 34".toList] = some [⟨0x900003FF00000002#64, [0x11#8, 0x22#8]⟩] := by decide
theorem test_assemble_repeat :
    assemble 3 ["WRITE I2C1, 0x50, 3".toList, "PAYLOAD 3 x 0xAA".toList] =
      some [⟨0x8000005000000003#64, [0xAA#8, 0xAA#8, 0xAA#8]⟩] := by decide
theorem test_assemble_refuses :
    ([["WRITE I2C1, 65536, 0".toList], ["INIT I2C4, STD".toList], ["CALC SLOW".toList],
      ["WRITE I2C1, 0x50, 2".toList, "PAYLOAD 0x11".toList], ["SEND I2C1, 0x50, 256".toList],
      ["WRITE I2C1, 0x50, 0".toList, "PAYLOAD 0 x 300".toList]].map (assemble 3)) =
      [none, none, none, none, none, none] := by decide

/-! ## Witnesses: the hypotheses of each statement, met together -/

/-- I2C1 in the default configuration. -/
def i2c1 : Instance := ⟨0x40005400#32, 21, 21⟩

/-- A running state: I2C1, three answers scheduled, a one-byte payload, one byte of the segment left. -/
def running (q : FsmState) : State :=
  { State.reset with
    STATE := q
    OP := if inWrite q then 2#2 else 1#2
    ADDR := 0x50#16
    LEN := 1#32
    CR2_BASE := 0x000010A0#32
    SEGLEFT := 1#8
    FINAL := true
    payload := [0xAA#8]
    replies := [0x00000001#32, 0x00000001#32, 0x00000001#32] }

theorem default_ok : configOk Config.default = true := by decide

theorem running_live (q : FsmState) : configOk (running q).cfg = true ∧ Undisturbed (running q) ∧
    instanceOf (running q).cfg (running q).INST = some i2c1 ∧ (running q).STATE = q :=
  ⟨default_ok, ⟨rfl, rfl⟩, rfl, rfl⟩

theorem test_witness_DecodeEncodeAgree :
    Instr.wf 3 (.calculate .fastPlus) = true ∧ Instr.wf 3 (.init 2#2 .std) = true ∧ Instr.wf 1 (.init 0#2 .fast) = true ∧
      Instr.wf 3 (.write 2#2 0xFFFF#16 0xFFFFFFFF#32) = true ∧ Instr.wf 3 (.reserved 0xFFFFFFFFFFFFFFFF#64) = true ∧
      Instr.wf 0 (.reserved 0x4000000000000000#64) = true := by decide

theorem test_witness_AssemblerEmitsNoReserved :
    ∃ cs, assemble 3 p4Lines = some cs ∧ ⟨0x900003FF00000002#64, [0x11#8, 0x22#8]⟩ ∈ cs ∧
      decode 3 0x900003FF00000002#64 = .write 1#2 0x3FF#16 2#32 :=
  ⟨_, test_assemble_write, by decide, by decide⟩

theorem test_witness_TimingFieldsOfTheTable :
    (0b01#2, 0, 1, 3, 3, 9) ∈
      [(0b00#2, 1, 2, 4, 15, 19), (0b01#2, 0, 1, 3, 3, 9), (0b10#2, 0, 0, 1, 3, 6)] := by decide

/-- Also for CalcCompletes, ReservedFinishesInvalid and, with an instruction, DispatchFrame and ExecRespectsEncoding. -/
theorem test_witness_CalcCompletes : State.reset.STATE = .IDLE := rfl

theorem test_witness_DispatchFrame :
    State.reset.STATE = .IDLE ∧ ∀ i ∈ [Instr.calculate .std, .init 2#2 .fast, .init 3#2 .std, .write 0#2 0x3FF#16 0#32,
      .write 0#2 0x400#16 1#32, .write 3#2 0#16 0#32, .reserved 0xC000000000000000#64],
      (after (exec i State.reset)).isSome = true := by decide

/-- A term no decoder yields, and one a decoder does. -/
theorem test_witness_ExecRespectsEncoding :
    (∀ d, Instr.init 3#2 .std ≠ .reserved d) ∧ ∀ d, Instr.write 0#2 0x50#16 1#32 ≠ .reserved d :=
  ⟨fun _ => nofun, fun _ => nofun⟩

theorem test_witness_InitDispatch : State.reset.STATE = .IDLE ∧ (2#2 : BitVec 2).toNat < State.reset.cfg.ninst := by
  decide

theorem test_witness_InitCompletes :
    let s := { State.reset with replies := [0x00020000#32, 0x00420000#32, 0x00000040#32] }
    s.STATE = .IDLE ∧ Undisturbed s ∧ configOk s.cfg = true ∧ s.cfg.legacyOrLoad = false ∧
      instanceOf s.cfg 0#2 = some i2c1 ∧ s.replies = 0x00020000#32 :: 0x00420000#32 :: 0x00000040#32 :: [] :=
  ⟨rfl, ⟨rfl, rfl⟩, rfl, rfl, rfl, rfl⟩

theorem test_witness_InitCompletesLegacy :
    let s := { State.reset with
      replies := [0#32, 0#32, 0x10240F13#32, 1#32], cfg := { Config.default with legacyOrLoad := true } }
    s.STATE = .IDLE ∧ Undisturbed s ∧ configOk s.cfg = true ∧ s.cfg.legacyOrLoad = true ∧
      instanceOf s.cfg 0#2 = some i2c1 ∧ s.replies = 0#32 :: 0#32 :: 0x10240F13#32 :: 1#32 :: [] :=
  ⟨rfl, ⟨rfl, rfl⟩, rfl, rfl, rfl, rfl⟩

theorem test_witness_WriteInvalidAddress :
    State.reset.STATE = .IDLE ∧ (0#2 : BitVec 2).toNat < State.reset.cfg.ninst ∧ 1023 < (1024#16 : BitVec 16).toNat := by
  decide

theorem test_witness_WriteDispatch :
    State.reset.STATE = .IDLE ∧ (2#2 : BitVec 2).toNat < State.reset.cfg.ninst ∧ (1023#16 : BitVec 16).toNat ≤ 1023 := by
  decide

/-- A byte that is sent after one TXE = 0 answer. -/
def sentByte : ByteRun := ⟨0xAA#8, 0x00000001#32, [0x00000000#32], 0x00000001#32⟩

theorem sentByte_sent : sentByte.Sent { Config.default with pollLimit := 2#32 } :=
  ⟨by decide, by simp [sentByte, txeOf], by decide, .inr (by decide)⟩

/-- A block in IDLE with POLL_LIMIT = 2 and a WRITE presented that has the payload `p`, the environment answering `r`. -/
def writing (p : List Byte) (r : List Word) : State :=
  { State.reset with
    cmdQueue := [⟨0x8000005000000001#64, p⟩]
    replies := r
    cfg := { Config.default with pollLimit := 2#32 } }

/-- WriteCompletes, WriteEventCount, SegmentWordsOfWrite, PayloadSentInOrder: a payload of any length is sent, every byte
after one TXE = 0 answer. -/
theorem writing_sends (m : Nat) (hm : m < 2 ^ 32) :
    let bs := List.replicate m sentByte
    WriteSends (writing (bs.map ByteRun.byte) (bs.flatMap ByteRun.answers ++ [])) 0#2 0x3FF#16 (BitVec.ofNat 32 m) i2c1 bs
      [] where
  idle := rfl
  undisturbed := ⟨rfl, rfl⟩
  config := default_ok
  instance_named := rfl
  address := by decide
  length := by simpa using Nat.mod_eq_of_lt hm
  payload := rfl
  answers := rfl
  sent _ hb := List.eq_of_mem_replicate hb ▸ sentByte_sent

/-- No byte, one byte, a full segment, and one byte past its boundary. -/
theorem test_witness_WriteSends : ∀ m ∈ [0, 1, 255, 256],
    let bs := List.replicate m sentByte
    WriteSends (writing (bs.map ByteRun.byte) (bs.flatMap ByteRun.answers ++ [])) 0#2 0x3FF#16 (BitVec.ofNat 32 m) i2c1 bs
      [] := by
  intro m hm
  exact writing_sends m (by simp only [List.mem_cons, List.not_mem_nil, or_false] at hm; omega)

/-- WriteCompletes's own hypotheses, of the same states. -/
theorem test_witness_WriteCompletes : ∀ m ∈ [0, 1, 255, 256],
    let bs := List.replicate m sentByte
    let s := writing (bs.map ByteRun.byte) (bs.flatMap ByteRun.answers ++ [])
    s.STATE = .IDLE ∧ Undisturbed s ∧ configOk s.cfg = true ∧ instanceOf s.cfg 0#2 = some i2c1 ∧
      (0x3FF#16 : BitVec 16).toNat ≤ 1023 ∧ (BitVec.ofNat 32 m).toNat = bs.length ∧
      (takeCommand s).payload = bs.map ByteRun.byte ∧ s.replies = bs.flatMap ByteRun.answers ++ [] ∧
      ∀ b ∈ bs, b.Sent s.cfg := by
  intro m hm
  have h := test_witness_WriteSends m hm
  exact ⟨h.idle, h.undisturbed, h.config, h.instance_named, h.address, h.length, h.payload, h.answers, h.sent⟩

/-- WriteNackAtByte: the NACK at the first byte, the second, the last of a segment and the first of the next, with one more
byte unsent. -/
theorem test_witness_WriteNackAtByte : ∀ k ∈ [0, 1, 254, 255],
    let bs := List.replicate k sentByte
    let s := writing (bs.map ByteRun.byte ++ [0x22#8, 0x33#8]) (bs.flatMap ByteRun.answers ++ 0x00000011#32 :: [])
    s.STATE = .IDLE ∧ Undisturbed s ∧ configOk s.cfg = true ∧ instanceOf s.cfg 0#2 = some i2c1 ∧
      (0x3FF#16 : BitVec 16).toNat ≤ 1023 ∧ [0x22#8, 0x33#8] ≠ ([] : List Byte) ∧
      (BitVec.ofNat 32 (k + 2)).toNat = bs.length + [0x22#8, 0x33#8].length ∧
      (takeCommand s).payload = bs.map ByteRun.byte ++ [0x22#8, 0x33#8] ∧
      s.replies = bs.flatMap ByteRun.answers ++ 0x00000011#32 :: [] ∧ (∀ b ∈ bs, b.Sent s.cfg) ∧
      nackfOf s.cfg 0x00000011#32 = true := by
  intro k hk
  have hk : k < 256 := by simp only [List.mem_cons, List.not_mem_nil, or_false] at hk; omega
  have hn : nackfOf Config.default 0x00000011#32 = true := by decide
  refine ⟨rfl, ⟨rfl, rfl⟩, default_ok, rfl, by decide, by decide, ?_, rfl, rfl, ?_, hn⟩
  · simpa using (by omega : k + 2 < 2 ^ 32)
  · intro b hb
    exact List.eq_of_mem_replicate hb ▸ sentByte_sent

/-- For ResetPulseSteps, TimingLoadSteps, EnableSteps and AddressPhaseStep: every state each clause is about. -/
theorem test_witness_Steps : ∀ q ∈ [FsmState.I_RST_RD1, .I_RST_SET, .I_RST_RD2, .I_RST_CLR, .I_TIM_RD, .I_TIM_WR,
    .I_PE_RD, .I_PE_WR, .W_ADDR], configOk (running q).cfg = true ∧ Undisturbed (running q) ∧
      instanceOf (running q).cfg (running q).INST = some i2c1 ∧ (running q).STATE = q :=
  fun q _ => running_live q

/-- I_TIM_WR with LEGACY_OR_LOAD = false is above; with it true: -/
theorem test_witness_TimingLoadSteps_legacy :
    let s := { running .I_TIM_WR with cfg := { Config.default with legacyOrLoad := true } }
    configOk s.cfg = true ∧ Undisturbed s ∧ instanceOf s.cfg s.INST = some i2c1 ∧ s.STATE = .I_TIM_WR ∧
      s.cfg.legacyOrLoad = true :=
  ⟨rfl, ⟨rfl, rfl⟩, rfl, rfl, rfl⟩

/-- SegmentStep: its three clauses at the edges of their ranges, 256, 255, 1 and 0 bytes left. -/
theorem test_witness_SegmentStep :
    (∀ r : BitVec 32, let s := { running .W_SEG with REM := r }
      configOk s.cfg = true ∧ Undisturbed s ∧ instanceOf s.cfg s.INST = some i2c1 ∧ s.STATE = .W_SEG) ∧
    255 < (256#32 : BitVec 32).toNat ∧ ((255#32 : BitVec 32).toNat ≤ 255 ∧ (255#32 : BitVec 32) ≠ 0#32) ∧
    ((1#32 : BitVec 32).toNat ≤ 255 ∧ (1#32 : BitVec 32) ≠ 0#32) ∧ (0#32 : BitVec 32) = 0#32 :=
  ⟨fun _ => ⟨default_ok, ⟨rfl, rfl⟩, rfl, rfl⟩, by decide, by decide, by decide, rfl⟩

/-- NackCheckStep: NACKF = 1 and NACKF = 0. -/
theorem test_witness_NackCheckStep :
    (answer { running .W_NACK with replies := [0x00000010#32] }).getLsbD Config.default.nackfBit = true ∧
      (answer (running .W_NACK)).getLsbD Config.default.nackfBit = false ∧ configOk (running .W_NACK).cfg = true ∧
      Undisturbed (running .W_NACK) ∧ instanceOf (running .W_NACK).cfg (running .W_NACK).INST = some i2c1 ∧
      (running .W_NACK).STATE = .W_NACK :=
  ⟨by decide, by decide, rfl, ⟨rfl, rfl⟩, rfl, rfl⟩

/-- W_TXE with POLL_LIMIT = `l`, POLLCNT = `p` and the answer `r`. -/
def polling (l p : BitVec 32) (r : Word) : State :=
  { running .W_TXE with POLLCNT := p, replies := [r], cfg := { Config.default with pollLimit := l } }

theorem polling_live (l p : BitVec 32) (r : Word) : configOk (polling l p r).cfg = true ∧ Undisturbed (polling l p r) ∧
    instanceOf (polling l p r).cfg (polling l p r).INST = some i2c1 ∧ (polling l p r).STATE = .W_TXE :=
  ⟨default_ok, ⟨rfl, rfl⟩, rfl, rfl⟩

/-- TxeWaitStep: TXE = 1; TXE = 0 at the limit and one below it; TXE = 0 with POLL_LIMIT = 0, at 0 and saturated. -/
theorem test_witness_TxeWaitStep :
    let t := fun l p r => (answer (polling l p r)).getLsbD Config.default.txeBit
    t 3#32 2#32 1#32 = true ∧ (t 3#32 2#32 0#32 = false ∧ (3#32 : BitVec 32) ≠ 0#32 ∧ 3 ≤ (2#32 : BitVec 32).toNat + 1) ∧
      (t 3#32 1#32 0#32 = false ∧ (1#32 : BitVec 32).toNat + 1 < 3) ∧ t 0#32 0#32 0#32 = false ∧
      t 0#32 0xFFFFFFFF#32 0#32 = false := by decide

/-- DataStep: more bytes in the segment; the last one of the final segment; the last one of another. -/
theorem test_witness_DataStep :
    (∀ l f, let s := { running .W_DATA with SEGLEFT := l, FINAL := f }
      configOk s.cfg = true ∧ Undisturbed s ∧ instanceOf s.cfg s.INST = some i2c1 ∧ s.STATE = .W_DATA ∧
        s.payload[s.IDX.toNat]? = some 0xAA#8) ∧
    (2#8 : BitVec 8) ≠ 1#8 ∧ (255#8 : BitVec 8) ≠ 1#8 :=
  ⟨fun _ _ => ⟨default_ok, ⟨rfl, rfl⟩, rfl, rfl, rfl⟩, by decide, by decide⟩

theorem test_witness_AddressPhaseFields :
    (0#16 : BitVec 16).toNat ≤ 127 ∧ (127#16 : BitVec 16).toNat ≤ 127 ∧ 128 ≤ (128#16 : BitVec 16).toNat ∧
      (128#16 : BitVec 16).toNat ≤ 1023 ∧ 128 ≤ (1023#16 : BitVec 16).toNat ∧ (1023#16 : BitVec 16).toNat ≤ 1023 := by
  decide

/-- For SegmentWordsOfWrite and PayloadSentInOrder, with test_witness_WriteSends. -/
theorem test_witness_SegmentWordsOfWrite :
    i2c1.base + Config.default.offCr2 ≠ i2c1.base + Config.default.offTxdr := by decide

theorem test_witness_PollLimitGivesTimeout :
    let s := { running .W_NACK with
      replies := [0x00000001#32, 0#32, 0#32, 1#32], cfg := { Config.default with pollLimit := 2#32 } }
    configOk s.cfg = true ∧ Undisturbed s ∧ instanceOf s.cfg s.INST = some i2c1 ∧ s.STATE = .W_NACK ∧
      nackfOf s.cfg 0x00000001#32 = false ∧ (∀ w ∈ [0#32, 0#32], txeOf s.cfg w = false) ∧ s.cfg.pollLimit ≠ 0#32 ∧
      [0#32, 0#32].length = s.cfg.pollLimit.toNat ∧ s.replies = 0x00000001#32 :: ([0#32, 0#32] ++ [1#32]) :=
  ⟨default_ok, ⟨rfl, rfl⟩, rfl, rfl, by decide, by simp [txeOf], by decide, rfl, rfl⟩

theorem test_witness_UnboundedPollingHangs :
    let s := { running .W_TXE with replies := [0#32, 0#32, 1#32] }
    configOk s.cfg = true ∧ Undisturbed s ∧ instanceOf s.cfg s.INST = some i2c1 ∧ s.STATE = .W_TXE ∧
      s.cfg.pollLimit = 0#32 ∧ (∀ w ∈ [0#32, 0#32], txeOf s.cfg w = false) ∧ s.replies = [0#32, 0#32] ++ [1#32] :=
  ⟨default_ok, ⟨rfl, rfl⟩, rfl, rfl, rfl, by simp [txeOf], rfl⟩

/-- A one-byte WRITE about to write its address word, and one in each later state: the invariant holds of them. -/
theorem running_inv : ∀ q ∈ [FsmState.W_NACK, .W_TXE, .W_DATA], SeqInv (running q) := by
  intro q hq
  simp only [List.mem_cons, List.not_mem_nil, or_false] at hq
  rcases hq with rfl | rfl | rfl <;> constructor <;> decide

/-- A one-byte WRITE in W_ADDR or W_SEG. -/
def starting (q : FsmState) : State := { running q with REM := 1#32, SEGLEFT := 0#8, FINAL := false }

theorem starting_inv : ∀ q ∈ [FsmState.W_ADDR, .W_SEG], SeqInv (starting q) := by
  intro q hq
  simp only [List.mem_cons, List.not_mem_nil, or_false] at hq
  rcases hq with rfl | rfl <;> constructor <;> decide

/-- The two CR2 writes, each with the invariant and the default positions. -/
theorem test_witness_Cr2WordsAreWriteTransfers :
    (∀ q ∈ [FsmState.W_ADDR, .W_SEG], SeqInv (starting q)) ∧
      State.reset.cfg = { Config.default with pollLimit := 0#32, legacyOrLoad := false } ∧
      instanceOf State.reset.cfg 0#2 = some i2c1 ∧
      ((after (step (starting .W_ADDR))).map State.events) =
        some ((starting .W_ADDR).events ++ [.wr (i2c1.base + Config.default.offCr2) 0x000010A0#32]) ∧
      ((after (step (starting .W_SEG))).map State.events) =
        some ((starting .W_SEG).events ++ [.wr (i2c1.base + Config.default.offCr2) 0x020130A0#32]) :=
  ⟨starting_inv, rfl, rfl, by decide, by decide⟩

/-- For every statement about a step that answers a next state without reset (CalculatorPortCombinational,
RegistersWrittenOnlyBy, BusAccessOfEachState, OneAccessPerBusyStep, AccessesAligned, InputsAreTheHosts): one from each
state, and from IDLE with a command presented. -/
theorem test_witness_step_next :
    ([FsmState.IDLE, .I_RST_RD1, .I_RST_SET, .I_RST_RD2, .I_RST_CLR, .I_TIM_RD, .I_TIM_WR, .I_PE_RD, .I_PE_WR, .W_ADDR,
      .W_SEG, .W_NACK, .W_TXE, .W_DATA].all fun q => (after (step (running q))).isSome) = true ∧
      (after (step (presenting 0x8000005000000001#64 [0xAA#8]))).isSome = true := by decide

/-- RegistersWrittenOnlyBy: each register changes in some step. -/
theorem test_witness_RegistersWrittenOnlyBy :
    let d := { presenting 0x9000005000000001#64 [0xAA#8] with IDX := 7#32, GRADE := 1#2 }
    ((after (step d)).map fun t => decide (t.OP ≠ d.OP ∧ t.INST ≠ d.INST ∧ t.GRADE ≠ d.GRADE ∧ t.ADDR ≠ d.ADDR ∧
      t.LEN ≠ d.LEN ∧ t.REM ≠ d.REM ∧ t.IDX ≠ d.IDX ∧ t.CR2_BASE ≠ d.CR2_BASE)) = some true ∧
    ((after (step (starting .W_SEG))).map fun t => decide (t.REM ≠ 1#32 ∧ t.SEGLEFT ≠ 0#8 ∧ t.FINAL ≠ false)) = some true ∧
    ((after (step (running .W_DATA))).map fun t => decide (t.IDX ≠ 0#32 ∧ t.SEGLEFT ≠ 1#8 ∧ t.OUTCOME ≠ .NONE)) =
      some true ∧
    ((after (step (running .I_RST_RD1))).map fun t => decide (t.TMP ≠ 0#32)) = some true ∧
    ((after (step (polling 3#32 1#32 0#32))).map fun t => decide (t.POLLCNT ≠ 1#32)) = some true ∧
    ((after (step (running .I_TIM_WR))).map fun t => decide (t.RES_TIMINGR ≠ 0#32)) = some true := by decide

/-- OtherIsrBitsIgnored: answers that agree in NACKF only, in W_NACK, and in TXE only, in W_TXE. -/
theorem test_witness_OtherIsrBitsIgnored :
    let s := { running .W_NACK with replies := [0x00000001#32] }
    let u := { running .W_TXE with replies := [0x00000001#32] }
    s.rst = false ∧ instanceOf s.cfg s.INST = some i2c1 ∧ s.STATE = .W_NACK ∧ u.STATE = .W_TXE ∧
      (0x00000001#32).getLsbD s.cfg.nackfBit = (0xFFFFFFEE#32).getLsbD s.cfg.nackfBit ∧
      (0x00000001#32).getLsbD u.cfg.txeBit = (0xFFFFFFFF#32).getLsbD u.cfg.txeBit ∧
      (after (step s)).isSome = true ∧ (after (step u)).isSome = true := by decide

/-- StalledAccessIsStuck: a running command, and IDLE. -/
theorem test_witness_StalledAccessIsStuck :
    SeqInv { running .W_NACK with busStall := true } ∧ SeqInv { State.reset with busStall := true } := by
  refine ⟨?_, ?_⟩ <;> constructor <;> decide

theorem test_witness_RegistersNeverAccessed :
    State.reset.cfg = { Config.default with pollLimit := 0#32, legacyOrLoad := false } ∧
      ((after (step (running .W_NACK))).map State.events) =
        some ((running .W_NACK).events ++ [.rd 0x40005418#32 0x00000001#32]) := ⟨rfl, by decide⟩

/-- OutcomeOfEachEnding: each ending happens. -/
theorem test_witness_OutcomeOfEachEnding :
    ([running .I_PE_WR, { running .W_SEG with REM := 0#32 }, running .W_DATA,
      { running .W_NACK with replies := [0x00000010#32] }, polling 1#32 0#32 0#32, presenting 0#64 [],
      presenting 0x8000040000000005#64 [], presenting 0xC000000000000000#64 []].map fun s =>
        (after (step s)).map fun t => (t.STATE, t.OUTCOME)) =
      [some (.IDLE, .COMPLETE), some (.IDLE, .COMPLETE), some (.IDLE, .COMPLETE), some (.IDLE, .ABORTED_NACK),
        some (.IDLE, .TIMEOUT), some (.IDLE, .COMPLETE), some (.IDLE, .INVALID_ADDRESS),
        some (.IDLE, .INVALID_COMMAND)] := by decide

/-- InvalidCommandBeforeAddress: with each reason to be reserved, and with none; ADDR = 0x400 in all. -/
theorem test_witness_InvalidCommandBeforeAddress :
    ([0x8001040000000001#64, 0x8400040000000001#64, 0xB000040000000001#64, 0x8000040000000001#64].all fun d =>
      d.extractLsb' 62 2 == 0b10#2 && decide (1023 < (d.extractLsb' 32 16).toNat)) = true ∧
    (0x8001040000000001#64).extractLsb' 48 10 ≠ 0#10 ∧ (0x8400040000000001#64).extractLsb' 58 2 ≠ 0#2 ∧
    3 ≤ ((0xB000040000000001#64).extractLsb' 60 2).toNat ∧
    ((0x8000040000000001#64).extractLsb' 48 10 = 0#10 ∧ (0x8000040000000001#64).extractLsb' 58 2 = 0#2 ∧
      ((0x8000040000000001#64).extractLsb' 60 2).toNat < 3) := by decide

/-- ResetStep and AcceptsAfterReset: reset in the middle of a WRITE, a command presented. -/
theorem test_witness_ResetStep :
    let s := { running .W_TXE with rst := true, cmdQueue := [⟨0#64, []⟩] }
    configOk s.cfg = true ∧ s.rst = true ∧ s.cmdQueue = ⟨0#64, []⟩ :: [] ∧ (after (step s)).isSome = true :=
  ⟨rfl, rfl, rfl, by decide⟩

theorem test_witness_StepRunsPresentedCommand :
    let s := presenting 0x0400000000000000#64 []
    configOk s.cfg = true ∧ s.rst = false ∧ s.cmdQueue = ⟨0x0400000000000000#64, []⟩ :: [] ∧
      0xC000000000000000 < 2 ^ 64 := ⟨rfl, rfl, rfl, by decide⟩

/-- PORT-3: a descriptor presented in W_TXE waits; and the clauses about a fault: the bus stalled. -/
theorem test_witness_BusyIgnoresCommandPort :
    let s := { running .W_TXE with cmdQueue := [⟨0x0400000000000000#64, []⟩] }
    s.STATE ≠ .IDLE ∧ s.rst = false ∧ (after (step s)).map State.cmdQueue = some s.cmdQueue ∧
      (after (step { s with busStall := true })).isNone = true := by decide

/-- PORT-4. -/
theorem test_witness_IdleWithoutCommand :
    configOk State.reset.cfg = true ∧ State.reset.rst = false ∧ State.reset.STATE = .IDLE ∧
      State.reset.cmdQueue = [] := ⟨rfl, rfl, rfl, rfl⟩

/-- A configuration that breaks R11, and the default one, which does not. -/
theorem test_witness_BadConfigurationRefused :
    configOk { Config.default with offCr1 := 2#32 } = false ∧ configOk { Config.default with startBit := 32 } = false ∧
      configOk { Config.default with saddLo := 32 } = false ∧
      configOk Config.default = true := by decide

/-- StepKeepsInvariant and LegalStatesStep: running commands, and IDLE after reset. -/
theorem test_witness_StepKeepsInvariant :
    (∀ q ∈ [FsmState.W_NACK, .W_TXE, .W_DATA], SeqInv (running q)) ∧ SeqInv State.reset ∧ State.reset.busStall = false :=
  ⟨running_inv, by constructor <;> decide, rfl⟩

theorem test_witness_DataStepNeverWraps :
    SeqInv (running .W_DATA) ∧ (running .W_DATA).rst = false ∧ (running .W_DATA).STATE = .W_DATA ∧
      (after (step (running .W_DATA))).isSome = true :=
  ⟨running_inv _ (by decide), rfl, rfl, by decide⟩

theorem test_witness_BoundedPollingTerminates :
    SeqInv (polling 3#32 2#32 0#32) ∧ Undisturbed (polling 3#32 2#32 0#32) ∧
      (polling 3#32 2#32 0#32).cfg.pollLimit ≠ 0#32 := by
  refine ⟨?_, ⟨rfl, rfl⟩, by decide⟩
  constructor <;> decide

end Sys2Proof.Tests
end

section
/-! PROOFS. A configuration that breaks 00_scope.md R11 is what every step refuses, and nothing else is refused: no rule of
a state and no dispatch answers a refusal. -/

namespace Sys2Proof.Machine

variable {s t : State} {r : Refusal}

/-! ## What is never refused -/

theorem busStep_ne_refused : busStep s t ≠ .refused r := by
  cases h : s.busStall
  · rw [busStep_live h]; nofun
  · rw [busStep_stalled h]; nofun

theorem onInstance_ne_refused {k : Instance → Result} (hk : ∀ x, k x ≠ .refused r) : onInstance s k ≠ .refused r := by
  unfold onInstance
  cases instanceOf s.cfg s.INST with
  | none => nofun
  | some x => exact hk x

/-- IDLE's own step goes on; every busy state's rule is one bus step, in most of them on the instance INST selects. -/
theorem sequencerStep_ne_refused : sequencerStep s ≠ .refused r := by
  cases h : s.STATE
  case IDLE => rw [sequencer_IDLE h]; nofun
  all_goals simp only [sequencerStep, h]
  case I_RST_RD1 | I_RST_RD2 => exact busStep_ne_refused
  all_goals exact onInstance_ne_refused fun _ => busStep_ne_refused

theorem exec_ne_refused (i : Instr) : exec i s ≠ .refused r := by
  by_cases h : s.STATE = .IDLE
  · cases i with
    | calculate g => rw [exec_calc g h]; nofun
    | init i g => rw [exec_init i g h]; nofun
    | write i a n => rw [exec_write i a n h]; nofun
    | reserved d => rw [exec_reserved d h]; nofun
  · rw [exec_busy i h]; exact sequencerStep_ne_refused

/-! ## What is refused -/

theorem step_bad_config (hc : configOk s.cfg = false) : step s = .refused .configSpellsNoBlock := by
  simp [step, hc]

/-- Under parameters that keep R11 a step is a reset, a command's step or the sequencer's own, and none is refused. -/
theorem step_ne_refused (hc : configOk s.cfg = true) : step s ≠ .refused r := by
  cases hr : s.rst with
  | true => rw [step_rst hc hr]; nofun
  | false =>
    cases hq : s.cmdQueue with
    | nil => rw [step_quiet hc hr hq]; exact sequencerStep_ne_refused
    | cons c cs => rw [step_presented hc hr hq]; exact exec_ne_refused _

theorem step_refused_iff : step s = .refused r ↔ configOk s.cfg = false ∧ r = .configSpellsNoBlock := by
  cases hc : configOk s.cfg with
  | true => simpa using step_ne_refused hc
  | false => simp [step_bad_config hc, eq_comm]

/-- R11 as `configOk` decides it, spelt out over the parameters. -/
theorem configOk_iff (c : Config) :
    configOk c = true ↔
      (∀ a ∈ [c.offCr1, c.offCr2, c.offTimingr, c.offIsr, c.offTxdr, c.rccApb1Rstr, c.rccApb1Enr], a.toNat % 4 = 0) ∧
        (∀ b ∈ [c.peBit, c.saddLo, c.rdWrnBit, c.add10Bit, c.head10rBit, c.startBit, c.reloadBit, c.autoendBit, c.txeBit,
            c.nackfBit], b < 32) ∧
        ∀ x ∈ c.instances, x.base.toNat % 4 = 0 ∧ x.rstBit < 32 ∧ x.enBit < 32 := by
  simp only [configOk, Bool.and_eq_true, List.all_eq_true, beq_iff_eq, decide_eq_true_eq, and_assoc]

/-- Settles O55: a step is refused exactly when `configOk` fails, and `configOk` is R11. -/
theorem badConfigurationRefused : Obligations.BadConfigurationRefused := by
  unfold Obligations.BadConfigurationRefused
  intro s
  rw [← configOk_iff, Bool.not_eq_true, step_refused_iff]
  exact and_iff_left rfl

end Sys2Proof.Machine
end

section
/-! PROOFS. 10_state.md: what a dispatch and a step of the sequencer leave unchanged, register by register, and the one bus
access a busy step makes. -/

namespace Sys2Proof.Machine

variable {s t : State} {i : Instr}

/-! ## The dispatch of a command, way by way -/

/-- Everything the dispatch of a command from IDLE can be, one constructor per way a command can go. -/
inductive Dispatched (s : State) : Instr → State → Prop where
  | calculated (g : Grade) : Dispatched s (.calculate g) (dispatchCalc g (takeCommand s))
  | initStarted {a : BitVec 2} {g : Grade} (ha : instOk s.cfg.ninst a = true) :
    Dispatched s (.init a g) { latch 1#2 a (gradeCode g) 0#16 0#32 (takeCommand s) with STATE := .I_RST_RD1 }
  | initUnnamed {a : BitVec 2} {g : Grade} (ha : instOk s.cfg.ninst a = false) :
    Dispatched s (.init a g) (finish .INVALID_COMMAND (latch 1#2 a (gradeCode g) 0#16 0#32 (takeCommand s)))
  | writeStarted {a : BitVec 2} {b : BitVec 16} {n : BitVec 32} (ha : instOk s.cfg.ninst a = true)
    (hb : b.toNat ≤ Config.addr10Max) :
    Dispatched s (.write a b n) { latch 2#2 a 0#2 b n (takeCommand s) with
      CR2_BASE := cr2Base s.cfg b, REM := n, IDX := 0#32, STATE := .W_ADDR }
  | writeBadAddress {a : BitVec 2} {b : BitVec 16} {n : BitVec 32} (ha : instOk s.cfg.ninst a = true)
    (hb : Config.addr10Max < b.toNat) :
    Dispatched s (.write a b n) (finish .INVALID_ADDRESS (latch 2#2 a 0#2 b n (takeCommand s)))
  | writeUnnamed {a : BitVec 2} {b : BitVec 16} {n : BitVec 32} (ha : instOk s.cfg.ninst a = false) :
    Dispatched s (.write a b n) (finish .INVALID_COMMAND (latch 2#2 a 0#2 b n (takeCommand s)))
  | reserved (d : Desc) : Dispatched s (.reserved d) (dispatchReserved d (takeCommand s))

theorem dispatched_init (a : BitVec 2) (g : Grade) : Dispatched s (.init a g) (dispatchInit a g (takeCommand s)) := by
  unfold dispatchInit
  split
  · exact .initStarted ‹_›
  · rename_i ha
    exact .initUnnamed (by simpa using ha)

theorem dispatched_write (a : BitVec 2) (b : BitVec 16) (n : BitVec 32) :
    Dispatched s (.write a b n) (dispatchWrite a b n (takeCommand s)) := by
  unfold dispatchWrite
  split
  · split
    · exact .writeBadAddress ‹_› ‹_›
    · exact .writeStarted ‹_› (Nat.not_lt.1 ‹_›)
  · rename_i ha
    exact .writeUnnamed (by simpa using ha)

/-- The inversion of a dispatch. -/
theorem exec_idle_next (h0 : s.STATE = .IDLE) (h : exec i s = .next t) : Dispatched s i t := by
  obtain ⟨g, rfl, rfl⟩ | ⟨a, g, rfl, rfl⟩ | ⟨a, b, n, rfl, rfl⟩ | ⟨d, rfl, rfl⟩ := exec_idle_cases h0 h
  · exact .calculated g
  · exact dispatched_init a g
  · exact dispatched_write a b n
  · exact .reserved d

/-- From IDLE every command has its dispatch step. -/
theorem exec_idle_total (i : Instr) (h0 : s.STATE = .IDLE) : ∃ t, exec i s = .next t := by
  cases i with
  | calculate g => exact ⟨_, exec_calc g h0⟩
  | init a g => exact ⟨_, exec_init a g h0⟩
  | write a b n => exact ⟨_, exec_write a b n h0⟩
  | reserved d => exact ⟨_, exec_reserved d h0⟩

/-! ## What a dispatch leaves unchanged (R22, R110) -/

/-- What no dispatch touches, and that the command has left the port. -/
structure DispatchKeeps (s t : State) : Prop where
  events : t.events = s.events
  replies : t.replies = s.replies
  draws : t.draws = s.draws
  TMP : t.TMP = s.TMP
  SEGLEFT : t.SEGLEFT = s.SEGLEFT
  FINAL : t.FINAL = s.FINAL
  POLLCNT : t.POLLCNT = s.POLLCNT
  rst : t.rst = s.rst
  calcGrade : t.calcGrade = s.calcGrade
  busStall : t.busStall = s.busStall
  cfg : t.cfg = s.cfg
  cmdQueue : t.cmdQueue = s.cmdQueue.tail
  payload : t.payload = (takeCommand s).payload

theorem Dispatched.keeps (h : Dispatched s i t) : DispatchKeeps s t := by
  cases h <;> constructor <;> rfl

theorem Dispatched.RES_TIMINGR (h : Dispatched s i t) : t.RES_TIMINGR = s.RES_TIMINGR ∨ ∃ g, i = .calculate g := by
  cases h
  case calculated g => exact .inr ⟨g, rfl⟩
  all_goals exact .inl rfl

/-- Only a WRITE that starts sets up a transfer (R130). -/
theorem Dispatched.transfer (h : Dispatched s i t) :
    (t.CR2_BASE = s.CR2_BASE ∧ t.REM = s.REM ∧ t.IDX = s.IDX) ∨ (t.STATE = .W_ADDR ∧ ∃ a b n, i = .write a b n) := by
  cases h
  case writeStarted a b n _ _ => exact .inr ⟨rfl, a, b, n, rfl⟩
  all_goals exact .inl ⟨rfl, rfl, rfl⟩

/-- A command that starts running leaves the previous one's outcome (R112, R130). -/
theorem Dispatched.OUTCOME (h : Dispatched s i t) : t.OUTCOME = s.OUTCOME ∨ t.STATE = .IDLE := by
  cases h
  case initStarted | writeStarted => exact .inl rfl
  all_goals exact .inr rfl

/-- Settles O22: the frame of every way a command can go. -/
theorem dispatchFrame : Obligations.DispatchFrame := by
  unfold Obligations.DispatchFrame
  intro s t i h0 h
  have d := exec_idle_next h0 h
  have k := d.keeps
  refine ⟨k.events, k.replies, k.draws, k.TMP, k.SEGLEFT, k.FINAL, k.POLLCNT, k.rst, k.calcGrade, k.busStall, k.cfg,
    k.cmdQueue, ?_, ?_, ?_, ?_⟩
  · rw [k.payload, takeCommand_payload]
    cases s.cmdQueue <;> rfl
  · exact fun hi => d.RES_TIMINGR.resolve_right fun ⟨g, hg⟩ => hi g hg
  · exact fun ht => d.transfer.resolve_right fun ⟨ha, _⟩ => ht ha
  · exact d.OUTCOME.resolve_right

/-! ## What each state's rule leaves unchanged (R21) -/

theorem SeqNext.command_registers (h : SeqNext s t) :
    t.OP = s.OP ∧ t.INST = s.INST ∧ t.GRADE = s.GRADE ∧ t.ADDR = s.ADDR ∧ t.LEN = s.LEN := by
  cases h <;> exact ⟨rfl, rfl, rfl, rfl, rfl⟩

theorem SeqNext.CR2_BASE (h : SeqNext s t) : t.CR2_BASE = s.CR2_BASE := by
  cases h <;> rfl

theorem SeqNext.cmdQueue (h : SeqNext s t) : t.cmdQueue = s.cmdQueue := by
  cases h <;> rfl

theorem SeqNext.REM (h : SeqNext s t) : t.REM = s.REM ∨ s.STATE = .W_SEG := by
  cases h
  case segEmpty hs _ _ _ | segBytes hs _ _ _ => exact .inr hs
  all_goals exact .inl rfl

theorem SeqNext.FINAL (h : SeqNext s t) : t.FINAL = s.FINAL ∨ s.STATE = .W_SEG := by
  cases h
  case segEmpty hs _ _ _ | segBytes hs _ _ _ => exact .inr hs
  all_goals exact .inl rfl

theorem SeqNext.IDX (h : SeqNext s t) : t.IDX = s.IDX ∨ s.STATE = .W_DATA := by
  cases h
  case dataByte hs _ _ _ | dataLast hs _ _ _ _ | dataSeg hs _ _ _ _ => exact .inr hs
  all_goals exact .inl rfl

theorem SeqNext.SEGLEFT (h : SeqNext s t) : t.SEGLEFT = s.SEGLEFT ∨ s.STATE = .W_SEG ∨ s.STATE = .W_DATA := by
  cases h
  case segEmpty hs _ _ _ | segBytes hs _ _ _ => exact .inr (.inl hs)
  case dataByte hs _ _ _ | dataLast hs _ _ _ _ | dataSeg hs _ _ _ _ => exact .inr (.inr hs)
  all_goals exact .inl rfl

theorem SeqNext.TMP (h : SeqNext s t) : t.TMP = s.TMP
    ∨ s.STATE = .I_RST_RD1 ∨ s.STATE = .I_RST_RD2 ∨ s.STATE = .I_TIM_RD ∨ s.STATE = .I_PE_RD := by
  cases h
  case rstRd1 hs _ => exact .inr (.inl hs)
  case rstRd2 hs _ => exact .inr (.inr (.inl hs))
  case timRd hs _ _ => exact .inr (.inr (.inr (.inl hs)))
  case peRd hs _ _ => exact .inr (.inr (.inr (.inr hs)))
  all_goals exact .inl rfl

theorem SeqNext.POLLCNT (h : SeqNext s t) : t.POLLCNT = s.POLLCNT ∨ s.STATE = .W_NACK ∨ s.STATE = .W_TXE := by
  cases h
  case notNacked hs _ _ _ => exact .inr (.inl hs)
  case txeWait hs _ _ _ _ => exact .inr (.inr hs)
  all_goals exact .inl rfl

theorem SeqNext.RES_TIMINGR (h : SeqNext s t) : t.RES_TIMINGR = s.RES_TIMINGR ∨ s.STATE = .I_TIM_WR := by
  cases h
  case timWr hs _ _ => exact .inr hs
  all_goals exact .inl rfl

theorem SeqNext.OUTCOME (h : SeqNext s t) : t.OUTCOME = s.OUTCOME ∨ t.STATE = .IDLE := by
  cases h
  case peWr | segEmpty | nacked | txeTimeout | dataLast => exact .inr rfl
  all_goals exact .inl rfl

/-! ## A step without reset -/

/-- Without reset, a step that answers a next state is the dispatch of the presented command or the rule of the state. -/
theorem step_next_running (hr : s.rst = false) (h : step s = .next t) :
    (s.STATE = .IDLE ∧ ∃ i, presented s = some i ∧ Dispatched s i t) ∨ SeqNext s t := by
  obtain ⟨-, ⟨hr', -⟩ | ⟨-, h0, i, hi, he⟩ | ⟨-, -, hq⟩⟩ := step_next_cases h
  · simp [hr] at hr'
  · exact .inl ⟨h0, i, hi, exec_idle_next h0 he⟩
  · exact .inr (sequencer_next hq)

/-- Settles O39, register by register: what a dispatch writes, then what a state's rule writes. -/
theorem registersWrittenOnlyBy : Obligations.RegistersWrittenOnlyBy := by
  unfold Obligations.RegistersWrittenOnlyBy
  intro s t h hr
  obtain ⟨h0, i, hi, d⟩ | q := step_next_running hr h
  · have k := d.keeps
    have write : ¬(t.CR2_BASE = s.CR2_BASE ∧ t.REM = s.REM ∧ t.IDX = s.IDX) →
        s.STATE = .IDLE ∧ ∃ i a n, presented s = some (.write i a n) := fun hn => by
      obtain ⟨-, a, b, n, rfl⟩ := d.transfer.resolve_left hn
      exact ⟨h0, a, b, n, hi⟩
    refine ⟨fun _ => ⟨h0, i, hi⟩, fun hn => .inr (write fun ⟨_, e, _⟩ => hn e), fun hn => absurd k.SEGLEFT hn,
      fun hn => absurd k.FINAL hn, fun hn => .inr (write fun ⟨_, _, e⟩ => hn e), fun hn => write fun ⟨e, _⟩ => hn e,
      fun hn => absurd k.TMP hn, fun hn => absurd k.POLLCNT hn, d.OUTCOME.resolve_left, fun hn => .inr ⟨h0, ?_⟩⟩
    obtain ⟨g, rfl⟩ := d.RES_TIMINGR.resolve_left hn
    exact ⟨g, hi⟩
  · refine ⟨fun hn => ?_, fun hn => .inl (q.REM.resolve_left hn), q.SEGLEFT.resolve_left, q.FINAL.resolve_left,
      fun hn => .inl (q.IDX.resolve_left hn), fun hn => absurd q.CR2_BASE hn, q.TMP.resolve_left, q.POLLCNT.resolve_left,
      q.OUTCOME.resolve_left, fun hn => .inl (q.RES_TIMINGR.resolve_left hn)⟩
    obtain ⟨hop, hinst, hgrade, haddr, hlen⟩ := q.command_registers
    simp [hop, hinst, hgrade, haddr, hlen] at hn

/-! ## The bus access of a step (R23, R24) -/

/-- Settles O40: the access is read off the rule of each state; a dispatch makes none. -/
theorem busAccessOfEachState : Obligations.BusAccessOfEachState := by
  unfold Obligations.BusAccessOfEachState
  refine ⟨by decide, fun s t h hr => ?_⟩
  obtain ⟨h0, i, -, d⟩ | q := step_next_running hr h
  · rw [h0]
    exact d.keeps.events
  · cases q
    case idle hs => rw [hs]
    case rstRd1 hs _ | rstRd2 hs _ | rstSet hs _ _ | rstClr hs _ _ => rw [hs]; exact ⟨_, rfl⟩
    case timRd hs _ hx | timWr hs _ hx | peRd hs _ hx | peWr hs _ hx | addr hs _ hx | segEmpty hs _ hx _
        | segBytes hs _ hx _ | nacked hs _ hx _ | notNacked hs _ hx _ | txeReady hs _ hx _ | txeTimeout hs _ hx _ _
        | txeWait hs _ hx _ _ | dataByte hs _ hx _ | dataLast hs _ hx _ _ | dataSeg hs _ hx _ _ =>
      rw [hs]; exact ⟨_, _, hx, rfl⟩

theorem SeqNext.event (h : SeqNext s t) (hb : s.STATE ≠ .IDLE) : ∃ e, t.events = s.events ++ [e] := by
  cases h
  case idle h0 => exact absurd h0 hb
  all_goals exact ⟨_, rfl⟩

/-- Settles O43: a reset and IDLE leave the events, every busy state's rule appends one. -/
theorem oneAccessPerBusyStep : Obligations.OneAccessPerBusyStep := by
  unfold Obligations.OneAccessPerBusyStep
  intro s t h
  obtain ⟨-, ⟨hr, rfl⟩ | ⟨-, h0, i, -, he⟩ | ⟨hr, -, hq⟩⟩ := step_next_cases h
  · exact ⟨fun _ => rfl, fun hn => by simp [hr] at hn⟩
  · exact ⟨fun _ => (exec_idle_next h0 he).keeps.events, fun _ hb => absurd h0 hb⟩
  · refine ⟨fun h0 => ?_, fun _ => (sequencer_next hq).event⟩
    rw [sequencer_IDLE (h0.resolve_left (by simp [hr]))] at hq
    cases hq
    rfl

/-! ## What a busy step does not depend on (R28, R37) -/

/-- `s` with the list `q` presented on the command port. -/
def State.withPort (q : List Command) (s : State) : State := { s with cmdQueue := q }

@[simp] theorem withPort_STATE (q : List Command) : (s.withPort q).STATE = s.STATE := rfl

/-- A result with the list `q` presented on the command port of its next state. -/
def Result.withPort (q : List Command) : Result → Result
  | .next t => .next (t.withPort q)
  | .fault f => .fault f
  | .refused r => .refused r

theorem busStep_withPort {u : State} {q : List Command} (h : u = t.withPort q) :
    busStep (s.withPort q) u = Result.withPort q (busStep s t) := by
  subst h
  cases hb : s.busStall with
  | false => rw [busStep_live hb, busStep_live (s := s.withPort q) hb]; rfl
  | true => rw [busStep_stalled hb, busStep_stalled (s := s.withPort q) hb]; rfl

theorem onInstance_withPort {q : List Command} {k k' : Instance → Result} (h : ∀ x, k' x = Result.withPort q (k x)) :
    onInstance (s.withPort q) k' = Result.withPort q (onInstance s k) := by
  cases hx : instanceOf s.cfg s.INST with
  | none => simp [onInstance, State.withPort, Result.withPort, hx]
  | some x => rw [onInstance_some (s := s.withPort q) hx, onInstance_some hx, h]

/-- The rule of no state reads the command port. -/
theorem sequencerStep_withPort (q : List Command) :
    sequencerStep (s.withPort q) = Result.withPort q (sequencerStep s) := by
  cases hs : s.STATE
  all_goals simp only [sequencerStep, withPort_STATE, hs]
  case IDLE => rfl
  case I_RST_RD1 | I_RST_RD2 => exact busStep_withPort rfl
  case W_SEG | W_NACK | W_TXE | W_DATA =>
    refine onInstance_withPort fun x => busStep_withPort ?_
    simp only [apply_ite (State.withPort q)]
    rfl
  all_goals exact onInstance_withPort fun x => busStep_withPort rfl

/-- Settles O52: a busy step is the sequencer's, which does not read the command port. -/
theorem busyIgnoresCommandPort : Obligations.BusyIgnoresCommandPort := by
  unfold Obligations.BusyIgnoresCommandPort
  intro s q hb hr
  cases hc : configOk s.cfg with
  | false => simp [step_bad_config hc, exec_busy _ hb]
  | true =>
    have hq : step { s with cmdQueue := q } = Result.withPort q (sequencerStep s) :=
      (step_busy (s := s.withPort q) hc hr hb).trans (sequencerStep_withPort q)
    rw [step_busy hc hr hb, hq]
    exact ⟨fun t ht => ⟨(sequencer_next ht).cmdQueue, by rw [ht]; rfl⟩, fun f hf => by rw [hf]; rfl,
      fun i => exec_busy i hb⟩

/-- W_NACK's rule once the answer `r` is next: it reads ISR, and tests NACKF (R136). -/
theorem sequencer_W_NACK_answered {x : Instance} {r : Word} {rs : List Word} (h : s.STATE = .W_NACK)
    (hb : s.busStall = false) (hx : instanceOf s.cfg s.INST = some x) (hr : s.replies = r :: rs) :
    sequencerStep s =
      let u := { s with replies := rs, events := s.events ++ [.rd (addrIsr s.cfg x) r] }
      .next (if r.getLsbD s.cfg.nackfBit then finish .ABORTED_NACK u
        else { u with POLLCNT := 0#32, STATE := .W_TXE }) := by
  rw [sequencer_W_NACK h hb hx, answer_cons hr, afterRead_cons hr]
  rfl

/-- W_TXE's rule once the answer `r` is next: it reads ISR, and tests TXE (R137). -/
theorem sequencer_W_TXE_answered {x : Instance} {r : Word} {rs : List Word} (h : s.STATE = .W_TXE)
    (hb : s.busStall = false) (hx : instanceOf s.cfg s.INST = some x) (hr : s.replies = r :: rs) :
    sequencerStep s =
      let u := { s with replies := rs, events := s.events ++ [.rd (addrIsr s.cfg x) r] }
      .next (if r.getLsbD s.cfg.txeBit then { u with STATE := .W_DATA }
        else if pollExpired s.cfg s.POLLCNT then finish .TIMEOUT u
        else { u with POLLCNT := pollNext s.POLLCNT, STATE := .W_TXE }) := by
  rw [sequencer_W_TXE h hb hx, answer_cons hr, afterRead_cons hr]
  rfl

/-- Settles O41: the two steps take the same branch, and the branches differ in the event only. -/
theorem otherIsrBitsIgnored : Obligations.OtherIsrBitsIgnored := by
  unfold Obligations.OtherIsrBitsIgnored
  intro s t x r r' rs hrst hx hr hs h
  have hbusy : s.STATE ≠ .IDLE := by
    obtain ⟨h0, -⟩ | ⟨h0, -⟩ := hs <;> simp [h0]
  obtain ⟨hc, -⟩ := step_next_cases h
  rw [step_busy hc hrst hbusy] at h
  rw [step_busy (s := { s with replies := r' :: rs }) hc hrst hbusy]
  have hb := sequencer_next_live hbusy h
  obtain ⟨h0, hbit⟩ | ⟨h0, hbit⟩ := hs
  · rw [sequencer_W_NACK_answered h0 hb hx hr] at h
    cases h
    rw [sequencer_W_NACK_answered (s := { s with replies := r' :: rs }) h0 hb hx rfl]
    simp only [hbit]
    split <;> rfl
  · rw [sequencer_W_TXE_answered h0 hb hx hr] at h
    cases h
    rw [sequencer_W_TXE_answered (s := { s with replies := r' :: rs }) h0 hb hx rfl]
    simp only [hbit]
    split
    · rfl
    · split <;> rfl

/-! ## Progress (R24, R170) -/

/-- With the bus live and INST below NINST while busy, the rule of every state has a next state. -/
theorem sequencer_total (hb : s.busStall = false) (hi : s.STATE ≠ .IDLE → s.INST.toNat < s.cfg.ninst) :
    ∃ t, sequencerStep s = .next t := by
  by_cases h0 : s.STATE = .IDLE
  · exact ⟨s, sequencer_IDLE h0⟩
  obtain ⟨x, hx⟩ := instanceOf_isSome.2 (hi h0)
  cases hs : s.STATE
  case IDLE => exact absurd hs h0
  case I_RST_RD1 => exact ⟨_, sequencer_I_RST_RD1 hs hb⟩
  case I_RST_SET => exact ⟨_, sequencer_I_RST_SET hs hb hx⟩
  case I_RST_RD2 => exact ⟨_, sequencer_I_RST_RD2 hs hb⟩
  case I_RST_CLR => exact ⟨_, sequencer_I_RST_CLR hs hb hx⟩
  case I_TIM_RD => exact ⟨_, sequencer_I_TIM_RD hs hb hx⟩
  case I_TIM_WR => exact ⟨_, sequencer_I_TIM_WR hs hb hx⟩
  case I_PE_RD => exact ⟨_, sequencer_I_PE_RD hs hb hx⟩
  case I_PE_WR => exact ⟨_, sequencer_I_PE_WR hs hb hx⟩
  case W_ADDR => exact ⟨_, sequencer_W_ADDR hs hb hx⟩
  case W_SEG => exact ⟨_, sequencer_W_SEG hs hb hx⟩
  case W_NACK => exact ⟨_, sequencer_W_NACK hs hb hx⟩
  case W_TXE => exact ⟨_, sequencer_W_TXE hs hb hx⟩
  case W_DATA => exact ⟨_, sequencer_W_DATA hs hb hx⟩

/-- Settles O59: a reset, a dispatch from IDLE and the rule of a legal state each have a next state. -/
theorem legalStatesStep : Obligations.LegalStatesStep := by
  unfold Obligations.LegalStatesStep
  intro s inv hb
  have hq := sequencer_total hb inv.instance_named
  cases hr : s.rst with
  | true => exact ⟨_, step_rst inv.config hr⟩
  | false =>
    by_cases h0 : s.STATE = .IDLE
    · cases hp : s.cmdQueue with
      | nil => rwa [step_quiet inv.config hr hp]
      | cons c cs => rw [step_presented inv.config hr hp]; exact exec_idle_total _ h0
    · rwa [step_busy inv.config hr h0]

/-! ## The command port, the status port and reset -/

/-- Settles O51, by the law of a step with a command presented. -/
theorem stepRunsPresentedCommand : Obligations.StepRunsPresentedCommand := by
  unfold Obligations.StepRunsPresentedCommand
  refine ⟨fun s c cs => step_presented, fun s w hc hw => ⟨?_, rfl⟩⟩
  have h := step_presented (s := s.withFetchWord 64 w) hc rfl rfl
  rwa [Nat.mod_eq_of_lt hw] at h

/-- Settles O53: with nothing presented the step is the sequencer's, and IDLE's rule changes nothing. -/
theorem idleWithoutCommand : Obligations.IdleWithoutCommand := by
  unfold Obligations.IdleWithoutCommand
  intro s hc hr h0 hq
  rw [step_quiet hc hr hq, sequencer_IDLE h0]

theorem busy_eq (s : State) : busy s = decide (s.STATE ≠ .IDLE) := by
  unfold busy
  cases s.STATE <;> rfl

theorem cmdReady_eq (s : State) : cmdReady s = decide (s.STATE = .IDLE) := by
  simp [cmdReady, busy_eq]

/-- Settles O38: the port shows the two flags and the two registers. -/
theorem statusPortShows : Obligations.StatusPortShows := by
  unfold Obligations.StatusPortShows
  exact ⟨fun s => ⟨busy_eq s, cmdReady_eq s, rfl, rfl⟩, rfl⟩

/-- Settles O42, by evaluating the state after reset. -/
theorem resetRegisters : Obligations.ResetRegisters := by
  unfold Obligations.ResetRegisters
  decide

end Sys2Proof.Machine
end

section
/-! PROOFS. 20_memory.md: where the bus accesses of a step are, what a stalled access does to a step, and what no step
changes. -/

namespace Sys2Proof.Machine

variable {s t : State} {c : Config} {e : BusEvent}

/-! ## Where a bus access is (R52) -/

/-- The offsets of the registers of an instance that the block reads (R23). -/
def readOffsets (c : Config) : List Word := [c.offCr1, c.offTimingr, c.offIsr]

/-- The offsets of the registers of an instance that the block writes (R23). -/
def writtenOffsets (c : Config) : List Word := [c.offCr1, c.offTimingr, c.offCr2, c.offTxdr]

/-- The accesses the block makes under the parameters `c`: the reset register, read and written, and the registers of an
instance. -/
inductive BusAccess (c : Config) : BusEvent → Prop where
  | readReset (v : Word) : BusAccess c (.rd c.rccApb1Rstr v)
  | writeReset (v : Word) : BusAccess c (.wr c.rccApb1Rstr v)
  | read {x : Instance} {o : Word} (hx : x ∈ c.instances) (ho : o ∈ readOffsets c) (v : Word) :
    BusAccess c (.rd (x.base + o) v)
  | write {x : Instance} {o : Word} (hx : x ∈ c.instances) (ho : o ∈ writtenOffsets c) (v : Word) :
    BusAccess c (.wr (x.base + o) v)

/-- The event the rule of a state appends is one of the block's accesses. -/
theorem SeqNext.access (h : SeqNext s t) (he : t.events = s.events ++ [e]) : BusAccess s.cfg e := by
  cases h
  case idle => simp at he
  all_goals cases List.append_cancel_left he
  case rstRd1 | rstRd2 => exact .readReset _
  case rstSet | rstClr => exact .writeReset _
  case timRd hx | peRd hx | nacked hx _ | notNacked hx _ | txeReady hx _ | txeTimeout hx _ _ | txeWait hx _ _ =>
    exact .read (instanceOf_mem hx) (by simp [readOffsets]) _
  case timWr hx | peWr hx | addr hx | segEmpty hx _ | segBytes hx _ | dataByte hx _ | dataLast hx _ _
      | dataSeg hx _ _ =>
    exact .write (instanceOf_mem hx) (by simp [writtenOffsets]) _

/-- The event a step appends is one of the block's accesses: a reset and a dispatch append none. -/
theorem step_access (h : step s = .next t) (he : t.events = s.events ++ [e]) : BusAccess s.cfg e := by
  obtain ⟨-, ⟨-, rfl⟩ | ⟨-, h0, i, -, hi⟩ | ⟨-, -, hq⟩⟩ := step_next_cases h
  · simp at he
  · simp [(exec_idle_next h0 hi).keeps.events] at he
  · exact (sequencer_next hq).access he

theorem add_aligned {a b : Word} (ha : a.toNat % 4 = 0) (hb : b.toNat % 4 = 0) : (a + b).toNat % 4 = 0 := by
  rw [BitVec.toNat_add]
  omega

/-- Under parameters that keep R11, bases and offsets are multiples of 4, and so are their sums. -/
theorem BusAccess.aligned (h : BusAccess c e) (hc : configOk c = true) : (Safety.eventAddr e).toNat % 4 = 0 := by
  obtain ⟨haddr, -, hinst⟩ := (configOk_iff c).1 hc
  cases h
  case readReset | writeReset => exact haddr c.rccApb1Rstr (by simp)
  case read hx ho _ | write hx ho _ =>
    refine add_aligned (hinst _ hx).1 (haddr _ ?_)
    simp only [readOffsets, writtenOffsets, List.mem_cons] at ho ⊢
    tauto

/-- Settles O44: every access of the block is aligned under parameters that keep R11. -/
theorem accessesAligned : Obligations.AccessesAligned := by
  unfold Obligations.AccessesAligned
  intro s t e h he
  obtain ⟨hc, -⟩ := step_next_cases h
  exact (step_access h he).aligned hc

/-! ## The accesses at the default addresses (R60, R123, R142) -/

/-- The offsets of all registers of an instance (R34). -/
def registerOffsets (c : Config) : List Word := [c.offCr1, c.offCr2, c.offTimingr, c.offIsr, c.offTxdr]

theorem readOffsets_subset (c : Config) : readOffsets c ⊆ registerOffsets c := by
  simp [readOffsets, registerOffsets]

theorem writtenOffsets_subset (c : Config) : writtenOffsets c ⊆ registerOffsets c := by
  simp [writtenOffsets, registerOffsets]

/-- The low ten bits of a default register address are the register's offset, and no register of an instance is one of
the reset-control unit's. -/
theorem default_register : ∀ x ∈ Config.default.instances, ∀ o ∈ registerOffsets Config.default,
    (x.base + o) &&& 0x3FF#32 = o ∧ x.base + o ≠ Config.default.rccApb1Rstr ∧
      x.base + o ≠ Config.default.rccApb1Enr := by
  simp [registerOffsets, Config.default]

section
variable {x y : Instance} {o q : Word} (hx : x ∈ Config.default.instances) (ho : o ∈ registerOffsets Config.default)
include hx ho

theorem default_offset_unique (hy : y ∈ Config.default.instances) (hq : q ∈ registerOffsets Config.default)
    (h : y.base + q = x.base + o) : q = o := by
  obtain ⟨hxo, -⟩ := default_register x hx o ho
  obtain ⟨hyq, -⟩ := default_register y hy q hq
  rw [← hyq, h, hxo]

theorem BusAccess.written_offset (h : BusAccess Config.default e) {v : Word} (he : e = .wr (x.base + o) v) :
    o ∈ writtenOffsets Config.default := by
  cases h with
  | readReset | read => cases he
  | writeReset => exact absurd (BusEvent.wr.inj he).1.symm (default_register x hx o ho).2.1
  | write hy hq =>
    rwa [← default_offset_unique hx ho hy (writtenOffsets_subset _ hq) (BusEvent.wr.inj he).1]

theorem BusAccess.read_offset (h : BusAccess Config.default e) {v : Word} (he : e = .rd (x.base + o) v) :
    o ∈ readOffsets Config.default := by
  cases h with
  | writeReset | write => cases he
  | readReset => exact absurd (BusEvent.rd.inj he).1.symm (default_register x hx o ho).2.1
  | read hy hq =>
    rwa [← default_offset_unique hx ho hy (readOffsets_subset _ hq) (BusEvent.rd.inj he).1]

end

theorem BusAccess.ne_clock_enable (h : BusAccess Config.default e) :
    Safety.eventAddr e ≠ Config.default.rccApb1Enr := by
  cases h with
  | readReset | writeReset => simp [Safety.eventAddr, Config.default]
  | read hx ho => exact (default_register _ hx _ (readOffsets_subset _ ho)).2.2
  | write hx ho => exact (default_register _ hx _ (writtenOffsets_subset _ ho)).2.2

/-- The accesses do not depend on POLL_LIMIT and LEGACY_OR_LOAD. -/
theorem BusAccess.of_poll_legacy {p : BitVec 32} {l : Bool}
    (h : BusAccess { c with pollLimit := p, legacyOrLoad := l } e) : BusAccess c e := by
  cases h with
  | readReset v => exact .readReset v
  | writeReset v => exact .writeReset v
  | read hx ho v => exact .read (c := c) hx ho v
  | write hx ho v => exact .write (c := c) hx ho v

/-- Settles O46: ISR is none of the registers written, TXDR and CR2 are none of those read. -/
theorem registersNeverAccessed : Obligations.RegistersNeverAccessed := by
  unfold Obligations.RegistersNeverAccessed
  intro s t e p l hcfg h he
  have access : BusAccess Config.default e := (hcfg ▸ step_access h he).of_poll_legacy
  refine ⟨access.ne_clock_enable, fun x hx v => ⟨fun hw => ?_, fun hr => ?_, fun hr => ?_⟩⟩
  · exact absurd (access.written_offset hx (by simp [registerOffsets]) hw) (by simp [writtenOffsets, Config.default])
  · exact absurd (access.read_offset hx (by simp [registerOffsets]) hr) (by simp [readOffsets, Config.default])
  · exact absurd (access.read_offset hx (by simp [registerOffsets]) hr) (by simp [readOffsets, Config.default])

/-! ## A stalled access (R55) -/

/-- Every busy state's rule is one bus step, in most of them on the instance INST selects. -/
theorem sequencer_stalled {x : Instance} (h0 : s.STATE ≠ .IDLE) (hb : s.busStall = true)
    (hx : instanceOf s.cfg s.INST = some x) : sequencerStep s = .fault .busAccessNeverCompletes := by
  cases h : s.STATE
  case IDLE => exact absurd h h0
  all_goals simp only [sequencerStep, h]
  case I_RST_RD1 | I_RST_RD2 => exact busStep_stalled hb
  all_goals exact (onInstance_some hx).trans (busStep_stalled hb)

/-- Without reset, IDLE has a next state whatever the bus does: it makes no access. -/
theorem step_idle_total (hc : configOk s.cfg = true) (hr : s.rst = false) (h0 : s.STATE = .IDLE) :
    ∃ t, step s = .next t := by
  cases hq : s.cmdQueue with
  | nil => exact ⟨s, by rw [step_quiet hc hr hq, sequencer_IDLE h0]⟩
  | cons c cs => rw [step_presented hc hr hq]; exact exec_idle_total _ h0

/-- Settles O45: a busy state's step waits for its access, IDLE's makes none. -/
theorem stalledAccessIsStuck : Obligations.StalledAccessIsStuck := by
  unfold Obligations.StalledAccessIsStuck
  intro s inv hr hb
  refine ⟨fun h0 => ?_, step_idle_total inv.config hr⟩
  obtain ⟨x, hx⟩ := instanceOf_isSome.2 (inv.instance_named h0)
  rw [step_busy inv.config hr h0, sequencer_stalled h0 hb hx]

/-! ## What no step changes (R10, R56) -/

/-- The inputs and the parameters stand. -/
structure InputsKept (s t : State) : Prop where
  rst : t.rst = s.rst
  calcGrade : t.calcGrade = s.calcGrade
  busStall : t.busStall = s.busStall
  cfg : t.cfg = s.cfg

theorem DispatchKeeps.inputs (h : DispatchKeeps s t) : InputsKept s t := ⟨h.rst, h.calcGrade, h.busStall, h.cfg⟩

theorem SeqNext.inputs (h : SeqNext s t) : InputsKept s t := by
  cases h <;> constructor <;> rfl

theorem SeqNext.payload (h : SeqNext s t) : t.payload = s.payload := by
  cases h <;> rfl

/-- Settles O54: a reset and the rule of a state keep all of it, a dispatch takes its command and payload from the
port. -/
theorem inputsAreTheHosts : Obligations.InputsAreTheHosts := by
  unfold Obligations.InputsAreTheHosts
  intro s t h
  obtain ⟨-, ⟨-, rfl⟩ | ⟨hr, h0, i, -, hi⟩ | ⟨-, -, hq⟩⟩ := step_next_cases h
  · exact ⟨rfl, rfl, rfl, rfl, fun _ => ⟨rfl, rfl⟩⟩
  · obtain ⟨hrst, hgrade, hstall, hcfg⟩ := (exec_idle_next h0 hi).keeps.inputs
    exact ⟨hrst, hgrade, hstall, hcfg, fun hn => by simp [h0, hr] at hn⟩
  · have q := sequencer_next hq
    obtain ⟨hrst, hgrade, hstall, hcfg⟩ := q.inputs
    exact ⟨hrst, hgrade, hstall, hcfg, fun _ => ⟨q.payload, q.cmdQueue⟩⟩

end Sys2Proof.Machine
end

section
/-! PROOFS. A WRITE that completes, run step by step: the wait for TXE, one byte, the segment word before it, the bytes of
the payload one after the other, and the whole command from its dispatch (41_write_sequencer.md R130 to R140). -/

namespace Sys2Proof.Safety

open Sys2Proof.Machine

variable {s t : State} {x : Instance} {n j k : Nat} {b : ByteRun} {bs : List ByteRun} {r : Word} {rs rest : List Word}

/-! ## Runs -/

theorem core_run_succ {M : Host.Core} {u v : M.State} (h : M.step u = .next v) (k : Nat) :
    M.run (k + 1) u = M.run k v := by
  rw [Host.Core.run, h]

theorem core_run_add {M : Host.Core} {u v : M.State} (h : M.run j u = .next v) (k : Nat) :
    M.run (j + k) u = M.run k v := by
  induction j generalizing u with
  | zero => cases h; rw [Nat.zero_add]
  | succ j ih =>
    rw [Host.Core.run] at h
    cases hs : M.step u with
    | next w =>
      rw [hs] at h
      rw [Nat.succ_add, core_run_succ hs, ih h]
    | fault f => simp [hs] at h
    | refused r => simp [hs] at h

theorem run_succ (h : step s = .next t) (k : Nat) : run (k + 1) s = run k t :=
  core_run_succ (M := Sys2Proof.core) h k

theorem run_one (h : step s = .next t) : run 1 s = .next t := run_succ h 0

theorem run_add (h : run j s = .next t) (k : Nat) : run (j + k) s = run k t :=
  core_run_add (M := Sys2Proof.core) h k

/-- The block of a legal configuration runs, undisturbed, a command of instance `x`. -/
structure Runs (s : State) (x : Instance) : Prop where
  config : configOk s.cfg = true
  undisturbed : Undisturbed s
  named : instanceOf s.cfg s.INST = some x

theorem Runs.step_eq (h : Runs s x) (hb : s.STATE ≠ .IDLE) : step s = sequencerStep s :=
  step_busy h.config h.undisturbed.2 hb

/-! ## The steps of one byte (R136, R137, R139) -/

/-- `s` once its ISR read has been answered `r`, the answers `rs` left; STATE and POLLCNT become `q` and `p`. -/
def isrRead (x : Instance) (r : Word) (rs : List Word) (q : FsmState) (p : BitVec 32) (s : State) : State :=
  { s with STATE := q, POLLCNT := p, replies := rs, events := s.events ++ [.rd (x.base + s.cfg.offIsr) r] }

theorem Runs.isrRead {q : FsmState} {p : BitVec 32} (h : Runs s x) : Runs (isrRead x r rs q p s) x :=
  ⟨h.config, h.undisturbed, h.named⟩

section
variable (hx : Runs s x) (hr : s.replies = r :: rs)
include hx hr

theorem step_notNacked (hs : s.STATE = .W_NACK) (hn : nackfOf s.cfg r = false) :
    step s = .next (isrRead x r rs .W_TXE 0#32 s) := by
  have hn : r.getLsbD s.cfg.nackfBit = false := hn
  rw [hx.step_eq (by simp [hs]), sequencer_W_NACK_answered hs hx.undisturbed.1 hx.named hr]
  simp only [hn]
  rfl

theorem step_txeWait (hs : s.STATE = .W_TXE) (ht : txeOf s.cfg r = false) (hp : pollExpired s.cfg s.POLLCNT = false) :
    step s = .next (isrRead x r rs .W_TXE (pollNext s.POLLCNT) s) := by
  have ht : r.getLsbD s.cfg.txeBit = false := ht
  rw [hx.step_eq (by simp [hs]), sequencer_W_TXE_answered hs hx.undisturbed.1 hx.named hr]
  simp only [ht, hp]
  rfl

theorem step_txeReady (hs : s.STATE = .W_TXE) (ht : txeOf s.cfg r = true) :
    step s = .next (isrRead x r rs .W_DATA s.POLLCNT s) := by
  have ht : r.getLsbD s.cfg.txeBit = true := ht
  rw [hx.step_eq (by simp [hs]), sequencer_W_TXE_answered hs hx.undisturbed.1 hx.named hr]
  simp only [ht]
  rfl

end

/-- `s` in W_DATA once `v` is written to TXDR and the counters have moved, but for the successor. -/
def byteWritten (x : Instance) (v : Byte) (s : State) : State :=
  { s with
    IDX := s.IDX + 1#32
    SEGLEFT := s.SEGLEFT - 1#8
    events := s.events ++ [.wr (x.base + s.cfg.offTxdr) (v.setWidth 32)] }

/-- Where W_DATA goes on from `s` once its byte is written and the counters have moved (R139). -/
def afterByte (s : State) : State :=
  if s.SEGLEFT ≠ 0#8 then { s with STATE := .W_NACK }
  else if s.FINAL then finish .COMPLETE s
  else { s with STATE := .W_SEG }

theorem step_W_DATA {v : Byte} (hx : Runs s x) (hs : s.STATE = .W_DATA) (hp : s.payload[s.IDX.toNat]? = some v) :
    step s = .next (afterByte (byteWritten x v s)) := by
  obtain ⟨hlt, hbyte⟩ := List.getElem?_eq_some_iff.1 hp
  rw [hx.step_eq (by simp [hs]), sequencer_W_DATA hs hx.undisturbed.1 hx.named, byteSent, afterPayRead_below hlt,
    payByte_below hlt, hbyte]
  rfl

/-! ## The wait for TXE (R137, R145) -/

/-- POLLCNT after `k` more TXE = 0 answers. -/
def pollAfter (p : BitVec 32) (k : Nat) : BitVec 32 := BitVec.ofNat 32 (min (p.toNat + k) (2 ^ 32 - 1))

theorem pollAfter_zero (p : BitVec 32) : pollAfter p 0 = p := by
  rw [pollAfter, Nat.add_zero, Nat.min_eq_left (by omega), BitVec.ofNat_toNat, BitVec.setWidth_eq]

theorem pollAfter_pollNext (p : BitVec 32) (k : Nat) : pollAfter (pollNext p) k = pollAfter p (k + 1) := by
  rw [pollAfter, pollNext_toNat, pollAfter]
  congr 1
  omega

/-- `s` in W_TXE once the TXE = 0 answers `ws` have been read, the answers `rest` left. -/
def waited (x : Instance) (ws rest : List Word) (s : State) : State :=
  { s with
    STATE := .W_TXE
    POLLCNT := pollAfter s.POLLCNT ws.length
    replies := rest
    events := s.events ++ ws.map fun r => .rd (x.base + s.cfg.offIsr) r }

theorem Runs.waited {ws : List Word} (h : Runs s x) : Runs (waited x ws rest s) x :=
  ⟨h.config, h.undisturbed, h.named⟩

/-- TXE = 0 answers that do not reach POLL_LIMIT leave the block in W_TXE. -/
theorem run_waits (ws : List Word) (hx : Runs s x) (hs : s.STATE = .W_TXE) (hw : ∀ w ∈ ws, txeOf s.cfg w = false)
    (hp : s.cfg.pollLimit = 0#32 ∨ s.POLLCNT.toNat + ws.length < s.cfg.pollLimit.toNat)
    (hr : s.replies = ws ++ rest) : run ws.length s = .next (waited x ws rest s) := by
  induction ws generalizing s with
  | nil =>
    have hr : s.replies = rest := hr
    rw [waited, List.length_nil, pollAfter_zero, List.map_nil, List.append_nil, ← hs, ← hr]
    rfl
  | cons w ws ih =>
    rw [List.forall_mem_cons] at hw
    rw [List.length_cons] at hp
    rw [List.cons_append] at hr
    have hexp : pollExpired s.cfg s.POLLCNT = false := by
      rw [← Bool.not_eq_true, pollExpired_iff]
      rintro ⟨h0, hle⟩
      have := hp.resolve_left h0
      omega
    rw [List.length_cons, run_succ (step_txeWait hx hr hs hw.1 hexp),
      ih hx.isrRead rfl hw.2 ?_ rfl]
    · simp [waited, isrRead, pollAfter_pollNext]
    · refine hp.imp_right fun hp => ?_
      show (pollNext s.POLLCNT).toNat + ws.length < s.cfg.pollLimit.toNat
      rw [pollNext_toNat]
      omega

/-! ## One byte -/

/-- `s` in W_DATA once the byte `b` has been sent, but for the successor; the answers `rest` are left. -/
def byteDone (x : Instance) (b : ByteRun) (rest : List Word) (s : State) : State :=
  { s with
    STATE := .W_DATA
    IDX := s.IDX + 1#32
    SEGLEFT := s.SEGLEFT - 1#8
    POLLCNT := pollAfter 0#32 b.waits.length
    replies := rest
    events := s.events ++ b.events s.cfg x }

/-- The NACK check, the wait, the read that ends it and the TXDR write make up `byteDone`. -/
theorem byteDone_eq : byteDone x b rest s =
    byteWritten x b.byte (isrRead x b.ready rest .W_DATA (pollAfter 0#32 b.waits.length)
      (waited x b.waits (b.ready :: rest) (isrRead x b.nack (b.waits ++ b.ready :: rest) .W_TXE 0#32 s))) := by
  simp [byteDone, byteWritten, isrRead, waited, ByteRun.events, ByteRun.answers]

/-- A byte takes one step for each of its bus events. -/
theorem run_byte (hx : Runs s x) (hs : s.STATE = .W_NACK) (hb : b.Sent s.cfg)
    (hp : s.payload[s.IDX.toNat]? = some b.byte) (hr : s.replies = b.answers ++ rest) :
    run (b.events s.cfg x).length s = .next (afterByte (byteDone x b rest s)) := by
  obtain ⟨hnack, hwaits, hready, hlimit⟩ := hb
  have hr : s.replies = b.nack :: (b.waits ++ b.ready :: rest) := by simp [hr, ByteRun.answers]
  have hwait := run_waits b.waits (rest := b.ready :: rest)
    (hx.isrRead (r := b.nack) (rs := b.waits ++ b.ready :: rest) (q := .W_TXE) (p := 0#32)) rfl hwaits
    (hlimit.imp_right fun h => (Nat.zero_add _).symm ▸ h) rfl
  rw [ByteRun.events_length, run_succ (step_notNacked hx hr hs hnack), run_add hwait,
    run_succ (step_txeReady hx.isrRead.waited rfl rfl hready), run_one (step_W_DATA hx.isrRead.waited.isrRead rfl hp),
    byteDone_eq]
  rfl

/-! ## The segment word before a byte (R134) -/

/-- How many of `n` bytes the segments hold that start before byte `j`. -/
def segEnd (n j : Nat) : Nat := min n (255 * ((j + 254) / 255))

theorem segEnd_start (h : j % 255 = 0) (hj : j < n) : segEnd n (j + 1) = j + min (n - j) 255 := by
  unfold segEnd; omega

theorem segEnd_inside (h : j % 255 ≠ 0) : segEnd n (j + 1) = segEnd n j := by
  unfold segEnd; omega

theorem segEnd_boundary (h : j % 255 = 0) (hj : j ≤ n) : segEnd n j = j := by
  unfold segEnd; omega

theorem segEnd_self : segEnd n n = n := by
  unfold segEnd; omega

theorem segEnd_bounds (hj : j < n) : j < segEnd n (j + 1) ∧ segEnd n (j + 1) ≤ n ∧ segEnd n (j + 1) ≤ j + 255 := by
  unfold segEnd; omega

/-- A segment whose last byte is `j` ends at a multiple of 255 or with the last byte of all. -/
theorem segEnd_succ (h : segEnd n (j + 1) = j + 1) : j + 1 = n ∨ (j + 1) % 255 = 0 := by
  unfold segEnd at h; omega

theorem segEnd_succ_ne (h : segEnd n (j + 1) ≠ j + 1) (hj : j < n) : j + 1 ≠ n ∧ (j + 1) % 255 ≠ 0 := by
  unfold segEnd at h; omega

/-- `s` in W_NACK before byte `j` of `n`, the segment word before that byte written where there is one. -/
def segOpen (x : Instance) (n j : Nat) (s : State) : State :=
  { s with
    STATE := .W_NACK
    REM := BitVec.ofNat 32 (n - segEnd n (j + 1))
    SEGLEFT := BitVec.ofNat 8 (segEnd n (j + 1) - j)
    FINAL := decide (segEnd n (j + 1) = n)
    events := s.events ++ segmentEvent s.cfg x s.CR2_BASE n j }

theorem Runs.segOpen (h : Runs s x) : Runs (segOpen x n j s) x := ⟨h.config, h.undisturbed, h.named⟩

/-- The block stands before byte `j` of `n`: in W_SEG where a segment starts there, else in W_NACK inside one. -/
structure BeforeByte (n j : Nat) (s : State) : Prop where
  index : s.IDX = BitVec.ofNat 32 j
  start : j % 255 = 0 → s.STATE = .W_SEG ∧ s.REM = BitVec.ofNat 32 (n - j)
  inside : j % 255 ≠ 0 → s.STATE = .W_NACK ∧ s.REM = BitVec.ofNat 32 (n - segEnd n j) ∧
    s.SEGLEFT = BitVec.ofNat 8 (segEnd n j - j) ∧ s.FINAL = decide (segEnd n j = n)

/-- What W_SEG makes of the counters where byte `j` of `n` starts a segment. -/
theorem segStarted_eq (hr : s.REM = BitVec.ofNat 32 (n - j)) (h : j % 255 = 0) (hj : j < n) (hn : n < 2 ^ 32) :
    { segStarted x s with STATE := .W_NACK } = segOpen x n j s := by
  have hREM : s.REM.toNat = n - j := by rw [hr, BitVec.toNat_ofNat]; omega
  have hlen : segLen s.REM = min (n - j) 255 := by rw [segLen, hREM]; rfl
  have hfinal : segFinal s.REM = decide (n - j ≤ 255) := by rw [segFinal, hREM]; rfl
  have hend := segEnd_start h hj
  have hrest : s.REM - BitVec.ofNat 32 (min (n - j) 255) = BitVec.ofNat 32 (n - segEnd n (j + 1)) := by
    apply BitVec.eq_of_toNat_eq
    rw [← hlen, segLen_sub_toNat, hlen, hREM, BitVec.toNat_ofNat]
    omega
  have hleft : segEnd n (j + 1) - j = min (n - j) 255 := by omega
  have hlast : decide (segEnd n (j + 1) = n) = decide (n - j ≤ 255) := decide_eq_decide.2 (by omega)
  simp [segOpen, segStarted, segStart, afterWrite, addrCr2, segmentEvent_start h, hlen, hfinal, hrest, hleft, hlast]

/-- One step where the byte starts a segment, none inside one. -/
theorem run_segOpen (hx : Runs s x) (hs : BeforeByte n j s) (hj : j < n) (hn : n < 2 ^ 32) :
    run (segmentEvent s.cfg x s.CR2_BASE n j).length s = .next (segOpen x n j s) := by
  by_cases h : j % 255 = 0
  · obtain ⟨hstate, hrem⟩ := hs.start h
    have hsome : segLen s.REM ≠ 0 := by
      have hREM : s.REM.toNat = n - j := by rw [hrem, BitVec.toNat_ofNat]; omega
      rw [segLen, hREM, Config.segMax]
      omega
    have hstep := hx.step_eq (by simp [hstate])
    rw [sequencer_W_SEG hstate hx.undisturbed.1 hx.named, if_neg hsome, segStarted_eq hrem h hj hn] at hstep
    rw [segmentEvent_start h, List.length_singleton, run_one hstep]
  · obtain ⟨hstate, hrem, hleft, hfinal⟩ := hs.inside h
    rw [segOpen, segEnd_inside h, segmentEvent_inside h, ← hstate, ← hrem, ← hleft, ← hfinal, List.append_nil]
    rfl

/-! ## The bytes, one after the other (R139, R140) -/

/-- `s` once `k` of `n` bytes are sent, POLLCNT at `p`, the answers `rest` left and the events `es` made: in IDLE with
COMPLETE after the last byte, else before the next. -/
def sentTo (n k : Nat) (p : BitVec 32) (rest : List Word) (es : List BusEvent) (s : State) : State :=
  { s with
    STATE := if k = n then .IDLE else if k % 255 = 0 then .W_SEG else .W_NACK
    REM := BitVec.ofNat 32 (n - segEnd n k)
    SEGLEFT := BitVec.ofNat 8 (segEnd n k - k)
    FINAL := decide (segEnd n k = n)
    IDX := BitVec.ofNat 32 k
    POLLCNT := p
    OUTCOME := if k = n then .COMPLETE else s.OUTCOME
    replies := rest
    events := s.events ++ es }

theorem Runs.sentTo {p : BitVec 32} {es : List BusEvent} (h : Runs s x) : Runs (sentTo n k p rest es s) x :=
  ⟨h.config, h.undisturbed, h.named⟩

theorem beforeByte_sentTo {p : BitVec 32} {es : List BusEvent} (hk : k < n) :
    BeforeByte n k (sentTo n k p rest es s) where
  index := rfl
  start h := by simp [sentTo, hk.ne, h, segEnd_boundary h hk.le]
  inside h := by simp [sentTo, hk.ne, h]

theorem sentTo_sentTo {p q : BitVec 32} {m : Nat} {rest' : List Word} {es fs : List BusEvent} (hk : k < n) :
    sentTo n m q rest fs (sentTo n k p rest' es s) = sentTo n m q rest (es ++ fs) s := by
  simp [sentTo, hk.ne]

/-- Where W_DATA goes on after byte `j` of `n`. -/
theorem afterByte_byteDone (hi : s.IDX = BitVec.ofNat 32 j) (hj : j < n) :
    afterByte (byteDone x b rest (segOpen x n j s)) =
      sentTo n (j + 1) (pollAfter 0#32 b.waits.length) rest
        (segmentEvent s.cfg x s.CR2_BASE n j ++ b.events s.cfg x) s := by
  obtain ⟨hlo, hhi, hlen⟩ := segEnd_bounds hj
  have hidx : BitVec.ofNat 32 j + 1#32 = BitVec.ofNat 32 (j + 1) := (BitVec.ofNat_add j 1).symm
  have hleft : BitVec.ofNat 8 (segEnd n (j + 1) - j) - 1#8 = BitVec.ofNat 8 (segEnd n (j + 1) - (j + 1)) := by
    apply BitVec.eq_of_toNat_eq
    simp only [BitVec.toNat_sub, BitVec.toNat_ofNat]
    omega
  by_cases h : segEnd n (j + 1) = j + 1
  · by_cases hn : j + 1 = n
    · subst hn
      simp [afterByte, byteDone, segOpen, sentTo, finish, h, hi, hidx]
    · have hb := (segEnd_succ h).resolve_left hn
      simp [afterByte, byteDone, segOpen, sentTo, h, hn, hi, hidx, hb]
  · have hne : BitVec.ofNat 8 (segEnd n (j + 1) - (j + 1)) ≠ 0#8 := by
      intro h0
      have h0 := congrArg BitVec.toNat h0
      simp only [BitVec.toNat_ofNat] at h0
      omega
    obtain ⟨hn, hb⟩ := segEnd_succ_ne h hj
    simp [afterByte, byteDone, segOpen, sentTo, hleft, hne, hn, hb, hi, hidx]

/-- POLLCNT once the bytes `bs` are sent from POLLCNT = `p`. -/
def pollSent (p : BitVec 32) (bs : List ByteRun) : BitVec 32 :=
  match bs.getLast? with
  | some b => pollAfter 0#32 b.waits.length
  | none => p

/-- The bytes `bs` come next on the payload port and are sent, from byte `j` of `n` on. -/
structure SendsNext (s : State) (x : Instance) (n j : Nat) (bs : List ByteRun) (rest : List Word) : Prop where
  runs : Runs s x
  before : BeforeByte n j s
  payload : bs.map ByteRun.byte <+: s.payload.drop j
  answers : s.replies = bs.flatMap ByteRun.answers ++ rest
  sent : ∀ b ∈ bs, b.Sent s.cfg
  length : j + bs.length ≤ n
  width : n < 2 ^ 32

/-- One byte with the segment word before it. -/
theorem SendsNext.run_first (h : SendsNext s x n j (b :: bs) rest) :
    run (segmentEvent s.cfg x s.CR2_BASE n j ++ b.events s.cfg x).length s =
      .next (sentTo n (j + 1) (pollAfter 0#32 b.waits.length) (bs.flatMap ByteRun.answers ++ rest)
        (segmentEvent s.cfg x s.CR2_BASE n j ++ b.events s.cfg x) s) := by
  have hj : j < n := by have := h.length; rw [List.length_cons] at this; omega
  have hw := h.width
  have hbyte : s.payload[s.IDX.toNat]? = some b.byte := by
    obtain ⟨u, hu⟩ := h.payload
    have hidx : s.IDX.toNat = j := by rw [h.before.index, BitVec.toNat_ofNat]; omega
    rw [hidx, ← List.head?_drop, ← hu]
    rfl
  have hrun := run_byte (b := b) (rest := bs.flatMap ByteRun.answers ++ rest) (h.runs.segOpen (n := n) (j := j)) rfl
    (h.sent b (by simp)) hbyte (by rw [← List.append_assoc]; exact h.answers)
  rw [List.length_append, run_add (run_segOpen h.runs h.before hj hw), ← afterByte_byteDone h.before.index hj]
  exact hrun

theorem SendsNext.tail {p : BitVec 32} {es : List BusEvent} (h : SendsNext s x n j (b :: bs) rest) (hj : j + 1 < n) :
    SendsNext (sentTo n (j + 1) p (bs.flatMap ByteRun.answers ++ rest) es s) x n (j + 1) bs rest where
  runs := h.runs.sentTo
  before := beforeByte_sentTo hj
  payload := by
    obtain ⟨u, hu⟩ := h.payload
    exact ⟨u, by rw [← List.tail_drop]; exact congrArg List.tail hu⟩
  answers := rfl
  sent c hc := h.sent c (by simp [hc])
  length := by have := h.length; rw [List.length_cons] at this; omega
  width := h.width

/-- The bytes `bs`, not none, take one step for each of their bus events. -/
theorem SendsNext.run_bytes (h : SendsNext s x n j bs rest) (hne : bs ≠ []) :
    run (bytesEvents s.cfg x s.CR2_BASE n j bs).length s =
      .next (sentTo n (j + bs.length) (pollSent s.POLLCNT bs) rest (bytesEvents s.cfg x s.CR2_BASE n j bs) s) := by
  induction bs generalizing s j with
  | nil => exact absurd rfl hne
  | cons b bs ih =>
    have hfirst := h.run_first
    cases bs with
    | nil => simpa [bytesEvents, pollSent] using hfirst
    | cons c cs =>
      have hj : j + 1 < n := by have := h.length; simp only [List.length_cons] at this; omega
      have hrest := ih (h.tail (p := pollAfter 0#32 b.waits.length)
        (es := segmentEvent s.cfg x s.CR2_BASE n j ++ b.events s.cfg x) hj) (by simp)
      rw [sentTo_sentTo hj] at hrest
      rw [bytesEvents, List.length_append, run_add hfirst, List.length_cons, ← Nat.add_assoc, Nat.add_right_comm]
      exact hrest

/-! ## The whole command (R130, R133, R134) -/

/-- `s` once the WRITE `i`, `a`, `n` is dispatched from IDLE. -/
def writeStarted (i : BitVec 2) (a : BitVec 16) (n : BitVec 32) (s : State) : State :=
  { takeCommand s with
    OP := 2#2, INST := i, GRADE := 0#2, ADDR := a, LEN := n, CR2_BASE := cr2Base s.cfg a, REM := n, IDX := 0#32
    STATE := .W_ADDR }

/-- `s` once the WRITE `i`, `a`, `n` has sent the bytes `bs` and completed, the answers `rest` left. -/
def writeDone (i : BitVec 2) (a : BitVec 16) (n : BitVec 32) (x : Instance) (bs : List ByteRun) (rest : List Word)
    (s : State) : State :=
  { takeCommand s with
    STATE := .IDLE, OP := 2#2, INST := i, GRADE := 0#2, ADDR := a, LEN := n, REM := 0#32, SEGLEFT := 0#8, FINAL := true
    IDX := n, CR2_BASE := cr2Base s.cfg a, POLLCNT := pollSent s.POLLCNT bs, OUTCOME := .COMPLETE, replies := rest
    events := s.events ++ writeEvents s.cfg x (cr2Base s.cfg a) bs }

section
variable {i : BitVec 2} {a : BitVec 16} {m : BitVec 32}

theorem exec_write_started (h0 : s.STATE = .IDLE) (hi : i.toNat < s.cfg.ninst) (ha : a.toNat ≤ 1023) :
    exec (.write i a m) s = .next (writeStarted i a m s) := by
  have hi : instOk s.cfg.ninst i = true := by simpa [instOk] using hi
  have ha : ¬ Config.addr10Max < a.toNat := Nat.not_lt.2 ha
  rw [exec_write _ _ _ h0]
  simp only [dispatchWrite, takeCommand_cfg, hi, ha, if_true, if_false]
  rfl

/-- `s` once the address word of the WRITE is written. -/
def addressed (i : BitVec 2) (a : BitVec 16) (n : BitVec 32) (x : Instance) (s : State) : State :=
  { afterWrite (x.base + s.cfg.offCr2) (cr2Base s.cfg a) (writeStarted i a n s) with STATE := .W_SEG }

theorem step_writeStarted (hx : Runs (writeStarted i a m s) x) :
    step (writeStarted i a m s) = .next (addressed i a m x s) := by
  rw [hx.step_eq nofun, sequencer_W_ADDR rfl hx.undisturbed.1 hx.named]
  rfl

/-- With no byte the one segment word ends the command (R134). -/
theorem run_addressed_empty (hx : Runs (addressed i a 0#32 x s) x) :
    run 1 (addressed i a 0#32 x s) = .next (writeDone i a 0#32 x [] s.replies s) := by
  have hnone : segLen (addressed i a 0#32 x s).REM = 0 := rfl
  have hlen : segLen 0#32 = 0 := rfl
  have hfinal : segFinal 0#32 = true := rfl
  refine run_one ?_
  rw [hx.step_eq nofun, sequencer_W_SEG rfl hx.undisturbed.1 hx.named, if_pos hnone]
  simp [writeDone, addressed, writeStarted, writeEvents, segmentEvent, segStarted, segStart, afterWrite, finish, pollSent,
    addrCr2, hlen, hfinal]

/-- Once the address word is written the payload's bytes come next. -/
theorem WriteSends.sendsNext (h : WriteSends s i a m x bs rest) :
    SendsNext (addressed i a m x s) x m.toNat 0 bs rest where
  runs := ⟨h.config, h.undisturbed, h.instance_named⟩
  before := ⟨rfl, fun _ => ⟨rfl, by simp [addressed, writeStarted]⟩, fun h => absurd rfl h⟩
  payload := by
    show _ <+: (takeCommand s).payload
    rw [h.payload]
  answers := h.answers
  sent := h.sent
  length := by rw [h.length, Nat.zero_add]
  width := m.isLt

theorem sentTo_addressed (hb : bs ≠ []) : sentTo m.toNat m.toNat (pollSent s.POLLCNT bs) rest
    (bytesEvents s.cfg x (cr2Base s.cfg a) bs.length 0 bs) (addressed i a m x s) = writeDone i a m x bs rest s := by
  simp [sentTo, segEnd_self, writeDone, addressed, writeStarted, writeEvents, hb]

/-- R147: a WRITE that completes takes, after its dispatch, one step for each of its bus events. -/
theorem WriteSends.run_write (h : WriteSends s i a m x bs rest) :
    exec (.write i a m) s = .next (writeStarted i a m s) ∧
      run (writeEvents s.cfg x (cr2Base s.cfg a) bs).length (writeStarted i a m s) =
        .next (writeDone i a m x bs rest s) := by
  have hnamed : i.toNat < s.cfg.ninst := instanceOf_isSome.1 ⟨x, h.instance_named⟩
  have hx : Runs (writeStarted i a m s) x := ⟨h.config, h.undisturbed, h.instance_named⟩
  refine ⟨exec_write_started h.idle hnamed h.address, ?_⟩
  rw [writeEvents, List.length_cons, run_succ (step_writeStarted hx)]
  have next := h.sendsNext
  by_cases hb : bs = []
  · subst hb
    obtain rfl : m = 0#32 := BitVec.eq_of_toNat_eq h.length
    have hrest : s.replies = rest := h.answers
    rw [← hrest, ← run_addressed_empty next.runs]
    rfl
  · have hrun := next.run_bytes hb
    rw [Nat.zero_add, h.length] at hrun
    rw [if_neg hb, ← sentTo_addressed hb, h.length]
    exact hrun

end

/-- Settles O34: the run makes the events of R147, whose TXDR words are the bytes of the payload. -/
theorem payloadSentInOrder : Obligations.PayloadSentInOrder := by
  unfold Obligations.PayloadSentInOrder
  intro s i a n x bs rest h hne
  obtain ⟨hexec, hrun⟩ := h.run_write
  rw [writeEvents_length] at hrun
  refine ⟨_, _, writeEvents s.cfg x (cr2Base s.cfg a) bs, hexec, hrun, rfl, rfl, rfl, ?_⟩
  rw [writeEvents_writesAt_txdr hne, h.payload, List.map_map]
  rfl

end Sys2Proof.Safety
end

section
/-! PROOFS. 30_encoding.md, the layer below its statements: the fields of a descriptor, and the decoder as the inverse of
the encoder. -/

namespace Sys2Proof

variable {ninst : Nat} {d e : Desc} {i : Instr}

/-! ## The fields of a descriptor (R70) -/

section Fields

variable (op inst grade op' inst' grade' : BitVec 2) (rsv rsv' : BitVec 10) (addr addr' : BitVec 16)
  (len len' : BitVec 32)

open BitVec (extractLsb'_append_eq_of_le extractLsb'_append_eq_left extractLsb'_append_eq_right
  extractLsb'_append_extractLsb'_eq_extractLsb')

@[simp] theorem descLen_descOf : descLen (descOf op inst grade rsv addr len) = len :=
  extractLsb'_append_eq_right

@[simp] theorem descAddr_descOf : descAddr (descOf op inst grade rsv addr len) = addr :=
  (extractLsb'_append_eq_of_le (by decide)).trans extractLsb'_append_eq_right

@[simp] theorem descRsv_descOf : descRsv (descOf op inst grade rsv addr len) = rsv :=
  (extractLsb'_append_eq_of_le (by decide)).trans <| (extractLsb'_append_eq_of_le (by decide)).trans
    extractLsb'_append_eq_right

/-- The three two-bit fields stand above the lower 58 bits. -/
theorem extractLsb'_descOf (k : Nat) : (descOf op inst grade rsv addr len).extractLsb' (58 + k) 2 =
    (op ++ inst ++ grade).extractLsb' k 2 :=
  (extractLsb'_append_eq_of_le (by omega)).trans <| (extractLsb'_append_eq_of_le (by omega)).trans <|
    (extractLsb'_append_eq_of_le (by omega)).trans (congrArg (BitVec.extractLsb' · 2 _) (by omega))

@[simp] theorem descGrade_descOf : descGrade (descOf op inst grade rsv addr len) = grade :=
  (extractLsb'_descOf op inst grade rsv addr len 0).trans extractLsb'_append_eq_right

@[simp] theorem descInst_descOf : descInst (descOf op inst grade rsv addr len) = inst :=
  (extractLsb'_descOf op inst grade rsv addr len 2).trans <|
    (extractLsb'_append_eq_of_le (by decide)).trans extractLsb'_append_eq_right

@[simp] theorem descOp_descOf : descOp (descOf op inst grade rsv addr len) = op :=
  (extractLsb'_descOf op inst grade rsv addr len 4).trans <|
    (extractLsb'_append_eq_of_le (by decide)).trans extractLsb'_append_eq_left

/-- The fields cover the 64 bits. -/
theorem descOf_fields (d : Desc) :
    descOf (descOp d) (descInst d) (descGrade d) (descRsv d) (descAddr d) (descLen d) = d := by
  unfold descOf descOp descInst descGrade descRsv descAddr descLen
  rw [extractLsb'_append_extractLsb'_eq_extractLsb', extractLsb'_append_extractLsb'_eq_extractLsb',
    extractLsb'_append_extractLsb'_eq_extractLsb', extractLsb'_append_extractLsb'_eq_extractLsb',
    extractLsb'_append_extractLsb'_eq_extractLsb']
  · exact BitVec.extractLsb'_eq_self
  all_goals rfl

theorem descOf_eq_iff (d : Desc) : descOf op inst grade rsv addr len = d ↔
    descOp d = op ∧ descInst d = inst ∧ descGrade d = grade ∧ descRsv d = rsv ∧ descAddr d = addr ∧ descLen d = len := by
  constructor
  · rintro rfl
    simp
  · rintro ⟨rfl, rfl, rfl, rfl, rfl, rfl⟩
    exact descOf_fields d

theorem descOf_inj : descOf op inst grade rsv addr len = descOf op' inst' grade' rsv' addr' len' ↔
    op = op' ∧ inst = inst' ∧ grade = grade' ∧ rsv = rsv' ∧ addr = addr' ∧ len = len' := by
  rw [eq_comm, descOf_eq_iff]
  simp

/-- A mask test is one test per field. -/
theorem and_descOf_eq_iff (d : Desc) :
    d &&& descOf op inst grade rsv addr len = descOf op' inst' grade' rsv' addr' len' ↔
      descOp d &&& op = op' ∧ descInst d &&& inst = inst' ∧ descGrade d &&& grade = grade' ∧ descRsv d &&& rsv = rsv'
        ∧ descAddr d &&& addr = addr' ∧ descLen d &&& len = len' := by
  rw [← descOf_inj]
  conv_lhs => rw [← descOf_fields d]
  unfold descOf
  rw [BitVec.and_append, BitVec.and_append, BitVec.and_append, BitVec.and_append, BitVec.and_append]

theorem append_eq_append_iff {m n : Nat} {x x' : BitVec m} {y y' : BitVec n} :
    x ++ y = x' ++ y' ↔ x = x' ∧ y = y' := by
  constructor
  · intro h
    have hx := congrArg (BitVec.extractLsb' n m) h
    have hy := congrArg (BitVec.extractLsb' 0 n) h
    rw [extractLsb'_append_eq_left, extractLsb'_append_eq_left] at hx
    rw [extractLsb'_append_eq_right, extractLsb'_append_eq_right] at hy
    exact ⟨hx, hy⟩
  · rintro ⟨rfl, rfl⟩
    rfl

/-- ADDR and LEN as the one field of 48 bits the spec tests (R75). -/
theorem addrLen_eq_zero_iff (d : Desc) : d.extractLsb' 0 48 = 0#48 ↔ descAddr d = 0#16 ∧ descLen d = 0#32 := by
  have split : descAddr d ++ descLen d = d.extractLsb' 0 (16 + 32) :=
    extractLsb'_append_extractLsb'_eq_extractLsb' rfl
  rw [← append_eq_append_iff, split]
  rfl

end Fields

/-! ## Grades (R73) -/

theorem gradeOf_eq_some_iff (c : BitVec 2) (g : Grade) : gradeOf c = some g ↔ c = gradeCode g := by
  revert c
  cases g <;> decide

theorem gradeOf_eq_none_iff (c : BitVec 2) : gradeOf c = none ↔ c = 3#2 := by
  revert c
  decide

@[simp] theorem gradeOf_gradeCode (g : Grade) : gradeOf (gradeCode g) = some g :=
  (gradeOf_eq_some_iff _ g).2 rfl

@[simp] theorem gradeCode_ne_reserved (g : Grade) : gradeCode g ≠ 3#2 := by
  cases g <;> decide

theorem exists_gradeCode_iff (c : BitVec 2) : (∃ g, c = gradeCode g) ↔ c ≠ 3#2 := by
  rw [ne_eq, ← gradeOf_eq_none_iff c, ← ne_eq, Option.ne_none_iff_exists']
  exact exists_congr fun g => (gradeOf_eq_some_iff c g).symm

/-! ## Reserved descriptors (R72, R78) -/

theorem instOk_iff (ninst : Nat) (a : BitVec 2) : instOk ninst a = true ↔ a.toNat < ninst := by
  simp [instOk]

theorem instOk_eq_false_iff (ninst : Nat) (a : BitVec 2) : instOk ninst a = false ↔ ninst ≤ a.toNat := by
  simp [instOk]

/-- R78's list, on the fields of the descriptor. -/
theorem descReserved_iff (ninst : Nat) (d : Desc) : descReserved ninst d = true ↔
    descOp d = 3#2 ∨ descRsv d ≠ 0#10
      ∨ (descOp d = 0#2 ∧ (descInst d ≠ 0#2 ∨ d.extractLsb' 0 48 ≠ 0#48 ∨ descGrade d = 3#2))
      ∨ (descOp d = 1#2 ∧ (d.extractLsb' 0 48 ≠ 0#48 ∨ ninst ≤ (descInst d).toNat ∨ descGrade d = 3#2))
      ∨ (descOp d = 2#2 ∧ (descGrade d ≠ 0#2 ∨ ninst ≤ (descInst d).toNat)) := by
  simp only [descReserved, Bool.or_eq_true, Bool.and_eq_true, Bool.not_eq_true', beq_iff_eq, bne_iff_ne,
    instOk_eq_false_iff, or_assoc]
  rfl

/-- The descriptor of a CALC, an INIT or a WRITE is reserved exactly when the term is ill-formed. -/
theorem descReserved_encode (hi : ∀ d, i ≠ .reserved d) : descReserved ninst (encode i) = !i.wf ninst := by
  rw [Bool.eq_iff_iff, descReserved_iff, ne_eq (BitVec.extractLsb' _ _ _), addrLen_eq_zero_iff]
  cases i with
  | calculate g => simp [encode, Instr.wf]
  | init a g => simp [encode, Instr.wf, instOk]
  | write a b n => simp [encode, Instr.wf, instOk]
  | reserved d => exact absurd rfl (hi d)

/-! ## The decoder (R75) -/

/-- Everything `decodeCmd` can answer: a well-formed command whose descriptor this is, or, of a descriptor that R78
lists, a reason to reject it. -/
inductive Decoded (ninst : Nat) : Desc → Except Reject Instr → Prop where
  | command {i : Instr} (hi : ∀ d, i ≠ .reserved d) (hw : i.wf ninst = true) : Decoded ninst (encode i) (.ok i)
  | rejected {d : Desc} {r : Reject} (hr : descReserved ninst d = true) : Decoded ninst d (.error r)

theorem Decoded.of_encode (hi : ∀ d, i ≠ .reserved d) (hw : i.wf ninst = true) (he : encode i = d) :
    Decoded ninst d (.ok i) :=
  he ▸ .command hi hw

section Opcodes

variable (hrsv : descRsv d = 0#10)
include hrsv

/-- CALC's checks in the decoder's order, those R78 lists (R75). -/
theorem decodeCmd_decoded_calc (h0 : descOp d = 0#2) : Decoded ninst d (decodeCmd ninst d) := by
  have reserved : descReserved ninst d = true ↔
      (descInst d ≠ 0#2 ∨ descAddr d ≠ 0#16 ∨ descLen d ≠ 0#32) ∨ descGrade d = 3#2 := by
    simp [descReserved_iff, addrLen_eq_zero_iff, hrsv, h0, or_assoc, imp_iff_not_or]
  rw [decodeCmd, if_neg (by simp [h0]), if_neg (by simp [hrsv]), if_pos h0]
  split
  case isTrue hunused => exact .rejected (reserved.2 (.inl hunused))
  case isFalse hunused =>
    simp only [not_or, not_not] at hunused
    obtain ⟨hinst, haddr, hlen⟩ := hunused
    split
    case h_1 hgrade => exact .rejected (reserved.2 (.inr ((gradeOf_eq_none_iff _).1 hgrade)))
    case h_2 g hgrade =>
      have hg := (gradeOf_eq_some_iff _ g).1 hgrade
      exact .of_encode nofun rfl ((descOf_eq_iff ..).2 ⟨h0, hinst, hg, hrsv, haddr, hlen⟩)

/-- INIT's checks (R75). -/
theorem decodeCmd_decoded_init (h1 : descOp d = 1#2) : Decoded ninst d (decodeCmd ninst d) := by
  have reserved : descReserved ninst d = true ↔
      (descAddr d ≠ 0#16 ∨ descLen d ≠ 0#32) ∨ ninst ≤ (descInst d).toNat ∨ descGrade d = 3#2 := by
    simp [descReserved_iff, addrLen_eq_zero_iff, hrsv, h1, imp_iff_not_or]
  rw [decodeCmd, if_neg (by simp [h1]), if_neg (by simp [hrsv]), if_neg (by simp [h1]), if_pos h1]
  split
  case isTrue hunused => exact .rejected (reserved.2 (.inl hunused))
  case isFalse hunused =>
    simp only [not_or, not_not] at hunused
    obtain ⟨haddr, hlen⟩ := hunused
    split
    case isTrue hinst => exact .rejected (reserved.2 (.inr (.inl hinst)))
    case isFalse hinst =>
      split
      case h_1 hgrade => exact .rejected (reserved.2 (.inr (.inr ((gradeOf_eq_none_iff _).1 hgrade))))
      case h_2 g hgrade =>
        have hg := (gradeOf_eq_some_iff _ g).1 hgrade
        exact .of_encode nofun ((instOk_iff ..).2 (Nat.not_le.1 hinst))
          ((descOf_eq_iff ..).2 ⟨h1, rfl, hg, hrsv, haddr, hlen⟩)

/-- WRITE's checks (R75). -/
theorem decodeCmd_decoded_write (h2 : descOp d = 2#2) : Decoded ninst d (decodeCmd ninst d) := by
  have reserved : descReserved ninst d = true ↔ descGrade d ≠ 0#2 ∨ ninst ≤ (descInst d).toNat := by
    simp [descReserved_iff, hrsv, h2]
  rw [decodeCmd, if_neg (by simp [h2]), if_neg (by simp [hrsv]), if_neg (by simp [h2]), if_neg (by simp [h2])]
  split
  case isTrue hgrade => exact .rejected (reserved.2 (.inl hgrade))
  case isFalse hgrade =>
    split
    case isTrue hinst => exact .rejected (reserved.2 (.inr hinst))
    case isFalse hinst =>
      exact .of_encode nofun ((instOk_iff ..).2 (Nat.not_le.1 hinst))
        ((descOf_eq_iff ..).2 ⟨h2, rfl, not_not.1 hgrade, hrsv, rfl, rfl⟩)

end Opcodes

theorem op_cases (op : BitVec 2) : op = 0#2 ∨ op = 1#2 ∨ op = 2#2 ∨ op = 3#2 := by
  revert op
  decide

theorem decodeCmd_decoded (ninst : Nat) (d : Desc) : Decoded ninst d (decodeCmd ninst d) := by
  by_cases h3 : descOp d = 3#2
  · rw [decodeCmd, if_pos h3]
    exact .rejected ((descReserved_iff ..).2 (.inl h3))
  by_cases hrsv : descRsv d = 0#10
  · obtain h0 | h1 | h2 | h := op_cases (descOp d)
    · exact decodeCmd_decoded_calc hrsv h0
    · exact decodeCmd_decoded_init hrsv h1
    · exact decodeCmd_decoded_write hrsv h2
    · exact absurd h h3
  · rw [decodeCmd, if_neg h3, if_pos hrsv]
    exact .rejected ((descReserved_iff ..).2 (.inr (.inl hrsv)))

/-! ## Decoder and encoder are inverse (R70, R75) -/

/-- Every descriptor has one reading: a well-formed command, or RESERVED with a reserved descriptor. -/
theorem decode_wf_encode (ninst : Nat) (d : Desc) : (decode ninst d).wf ninst = true ∧ encode (decode ninst d) = d := by
  unfold decode
  have h := decodeCmd_decoded ninst d
  generalize decodeCmd ninst d = r at h
  cases h with
  | command _ hw => exact ⟨hw, rfl⟩
  | rejected hr => exact ⟨hr, rfl⟩

/-- A reserved descriptor is no well-formed command's, so its one reading is RESERVED. -/
theorem decode_reserved (hd : descReserved ninst d = true) : decode ninst d = .reserved d := by
  obtain ⟨hw, he⟩ := decode_wf_encode ninst d
  generalize decode ninst d = i at hw he
  by_cases hi : ∀ d', i ≠ .reserved d'
  · have hvalid := descReserved_encode (ninst := ninst) hi
    simp [he, hd, hw] at hvalid
  · simp only [ne_eq, not_forall, not_not] at hi
    obtain ⟨d', rfl⟩ := hi
    rw [← he]
    rfl

theorem decode_encode (hw : i.wf ninst = true) : decode ninst (encode i) = i := by
  cases i with
  | calculate g => simp [decode, decodeCmd, encode]
  | init a g => simp [decode, decodeCmd, encode, Nat.not_le.2 ((instOk_iff ..).1 hw)]
  | write a b n => simp [decode, decodeCmd, encode, Nat.not_le.2 ((instOk_iff ..).1 hw)]
  | reserved d => exact decode_reserved hw

/-- What a descriptor decodes to, with no mention of the decoder's checks: the one well-formed term it encodes. -/
theorem decode_eq_iff : decode ninst d = i ↔ i.wf ninst = true ∧ encode i = d := by
  constructor
  · rintro rfl
    exact decode_wf_encode ninst d
  · rintro ⟨hw, rfl⟩
    exact decode_encode hw

/-! The same, command by command, on the bits of the descriptor (R74, R76). -/

theorem decode_eq_calculate_iff (g : Grade) : decode ninst d = .calculate g ↔
    descOp d = 0#2 ∧ descRsv d = 0#10 ∧ descInst d = 0#2 ∧ d.extractLsb' 0 48 = 0#48 ∧ descGrade d = gradeCode g := by
  rw [decode_eq_iff, encode, descOf_eq_iff, addrLen_eq_zero_iff]
  constructor
  · rintro ⟨-, ho, hi, hg, hr, hal⟩
    exact ⟨ho, hr, hi, hal, hg⟩
  · rintro ⟨ho, hr, hi, hal, hg⟩
    exact ⟨rfl, ho, hi, hg, hr, hal⟩

theorem decode_eq_init_iff (a : BitVec 2) (g : Grade) : decode ninst d = .init a g ↔
    descOp d = 1#2 ∧ descRsv d = 0#10 ∧ d.extractLsb' 0 48 = 0#48 ∧ a = descInst d ∧ a.toNat < ninst
      ∧ descGrade d = gradeCode g := by
  rw [decode_eq_iff, encode, descOf_eq_iff, addrLen_eq_zero_iff, Instr.wf, instOk_iff]
  constructor
  · rintro ⟨ha, ho, rfl, hg, hr, hal⟩
    exact ⟨ho, hr, hal, rfl, ha, hg⟩
  · rintro ⟨ho, hr, hal, rfl, ha, hg⟩
    exact ⟨ha, ho, rfl, hg, hr, hal⟩

theorem decode_eq_write_iff (a : BitVec 2) (b : BitVec 16) (n : BitVec 32) : decode ninst d = .write a b n ↔
    descOp d = 2#2 ∧ descRsv d = 0#10 ∧ descGrade d = 0#2 ∧ a = descInst d ∧ a.toNat < ninst ∧ b = descAddr d
      ∧ n = descLen d := by
  rw [decode_eq_iff, encode, descOf_eq_iff, Instr.wf, instOk_iff]
  constructor
  · rintro ⟨ha, ho, rfl, hg, hr, rfl, rfl⟩
    exact ⟨ho, hr, hg, rfl, ha, rfl, rfl⟩
  · rintro ⟨ho, hr, hg, rfl, ha, rfl, rfl⟩
    exact ⟨ha, ho, rfl, hg, hr, rfl, rfl⟩

theorem decode_eq_reserved_iff : decode ninst d = .reserved e ↔ e = d ∧ descReserved ninst d = true := by
  rw [decode_eq_iff, encode, Instr.wf]
  constructor
  · rintro ⟨hd, rfl⟩
    exact ⟨rfl, hd⟩
  · rintro ⟨rfl, hd⟩
    exact ⟨hd, rfl⟩

end Sys2Proof
end

section
/-! PROOFS. 30_encoding.md: the statements about the decoder and the encoder. -/

namespace Sys2Proof

variable {ninst : Nat} {d : Desc}

/-- Settles O2, by `decode_encode`. -/
theorem decodeEncodeAgree : Obligations.DecodeEncodeAgree := by
  unfold Obligations.DecodeEncodeAgree
  exact fun _ _ hw => decode_encode hw

/-- Settles O3, by reading off the answer of the decoder, check by check (`decodeCmd_decoded`). -/
theorem encodeDecodeAgree : Obligations.EncodeDecodeAgree := by
  unfold Obligations.EncodeDecodeAgree
  exact decode_wf_encode

/-- Settles O4: to decode to a command is to hold its encoding's fields. -/
theorem decodeIsTheSpecsDecode : Obligations.DecodeIsTheSpecsDecode := by
  unfold Obligations.DecodeIsTheSpecsDecode
  intro ninst d
  exact ⟨decode_eq_calculate_iff, decode_eq_init_iff, decode_eq_write_iff,
    fun _ h => (decode_eq_reserved_iff.1 h).1⟩

/-! ## The rows of the opcode table (R77) -/

theorem and_calcMask_iff (d : Desc) : d &&& 0xF3FFFFFFFFFFFFFF#64 = 0x0000000000000000#64 ↔
    descOp d = 0#2 ∧ descInst d = 0#2 ∧ descRsv d = 0#10 ∧ d.extractLsb' 0 48 = 0#48 := by
  have mask : 0xF3FFFFFFFFFFFFFF#64 = descOf (.allOnes 2) (.allOnes 2) 0#2 (.allOnes 10) (.allOnes 16) (.allOnes 32) := by
    decide
  have row : 0x0000000000000000#64 = descOf 0#2 0#2 0#2 0#10 0#16 0#32 := by decide
  rw [mask, row, and_descOf_eq_iff, addrLen_eq_zero_iff]
  simp only [BitVec.and_allOnes, BitVec.and_zero, true_and]

theorem and_initMask_iff (d : Desc) : d &&& 0xC3FFFFFFFFFFFFFF#64 = 0x4000000000000000#64 ↔
    descOp d = 1#2 ∧ descRsv d = 0#10 ∧ d.extractLsb' 0 48 = 0#48 := by
  have mask : 0xC3FFFFFFFFFFFFFF#64 = descOf (.allOnes 2) 0#2 0#2 (.allOnes 10) (.allOnes 16) (.allOnes 32) := by
    decide
  have row : 0x4000000000000000#64 = descOf 1#2 0#2 0#2 0#10 0#16 0#32 := by decide
  rw [mask, row, and_descOf_eq_iff, addrLen_eq_zero_iff]
  simp only [BitVec.and_allOnes, BitVec.and_zero, true_and]

theorem and_writeMask_iff (d : Desc) : d &&& 0xCFFF000000000000#64 = 0x8000000000000000#64 ↔
    descOp d = 2#2 ∧ descGrade d = 0#2 ∧ descRsv d = 0#10 := by
  have mask : 0xCFFF000000000000#64 = descOf (.allOnes 2) 0#2 (.allOnes 2) (.allOnes 10) 0#16 0#32 := by decide
  have row : 0x8000000000000000#64 = descOf 2#2 0#2 0#2 0#10 0#16 0#32 := by decide
  rw [mask, row, and_descOf_eq_iff]
  simp only [BitVec.and_allOnes, BitVec.and_zero, true_and, and_true]

theorem decode_calculate_iff_row : (∃ g, decode ninst d = .calculate g) ↔
    d &&& 0xF3FFFFFFFFFFFFFF#64 = 0x0000000000000000#64 ∧ descGrade d ≠ 3#2 := by
  rw [and_calcMask_iff, ← exists_gradeCode_iff]
  simp only [decode_eq_calculate_iff]
  constructor
  · rintro ⟨g, ho, hr, hi, hal, hg⟩
    exact ⟨⟨ho, hi, hr, hal⟩, g, hg⟩
  · rintro ⟨⟨ho, hi, hr, hal⟩, g, hg⟩
    exact ⟨g, ho, hr, hi, hal, hg⟩

theorem decode_init_iff_row : (∃ a g, decode ninst d = .init a g) ↔
    d &&& 0xC3FFFFFFFFFFFFFF#64 = 0x4000000000000000#64 ∧ (descInst d).toNat < ninst ∧ descGrade d ≠ 3#2 := by
  rw [and_initMask_iff, ← exists_gradeCode_iff]
  simp only [decode_eq_init_iff]
  constructor
  · rintro ⟨_, g, ho, hr, hal, rfl, ha, hg⟩
    exact ⟨⟨ho, hr, hal⟩, ha, g, hg⟩
  · rintro ⟨⟨ho, hr, hal⟩, ha, g, hg⟩
    exact ⟨_, g, ho, hr, hal, rfl, ha, hg⟩

theorem decode_write_iff_row : (∃ a b n, decode ninst d = .write a b n) ↔
    d &&& 0xCFFF000000000000#64 = 0x8000000000000000#64 ∧ (descInst d).toNat < ninst := by
  rw [and_writeMask_iff]
  simp only [decode_eq_write_iff]
  constructor
  · rintro ⟨_, _, _, ho, hr, hg, rfl, ha, rfl, rfl⟩
    exact ⟨⟨ho, hg, hr⟩, ha⟩
  · rintro ⟨⟨ho, hg, hr⟩, ha⟩
    exact ⟨_, _, _, ho, hr, hg, rfl, ha, rfl, rfl⟩

/-- Settles O5: a mask tests the fields that `decode` tests, and a grade stands for each code but 11. -/
theorem opcodeTableRows : Obligations.OpcodeTableRows := by
  unfold Obligations.OpcodeTableRows
  exact fun _ _ => ⟨decode_calculate_iff_row, decode_init_iff_row, decode_write_iff_row⟩

/-- Settles O6: RESERVED is the answer exactly for the descriptors of `descReserved`, which is R78's list. -/
theorem reservedDescriptorsListed : Obligations.ReservedDescriptorsListed := by
  unfold Obligations.ReservedDescriptorsListed
  intro ninst d
  rw [decode_eq_reserved_iff, eq_self, true_and]
  exact descReserved_iff ninst d

/-- Settles O1, by evaluating the decoder on the table of R82. -/
theorem specDescriptorsDecode : Obligations.SpecDescriptorsDecode := by
  unfold Obligations.SpecDescriptorsDecode
  decide

end Sys2Proof
end

section
/-! PROOFS. 30_encoding.md: what the assembler emits, and how a command acts through its descriptor. -/

namespace Sys2Proof.Machine

variable {s : State} {ninst : Nat} {c : Command}

/-! ## What the assembler emits (R80, R81) -/

/-- The command carries a well-formed command's descriptor, no reserved one, and as many bytes as a WRITE says. -/
structure Emitted (ninst : Nat) (c : Command) (i : Instr) : Prop where
  desc : c.desc = encode i
  wf : i.wf ninst = true
  valid : ∀ d, i ≠ .reserved d
  payload : ∀ a b n, i = .write a b n → c.payload.length = n.toNat

theorem Emitted.decode {i : Instr} (h : Emitted ninst c i) : decode ninst c.desc = i := by
  rw [h.desc, decode_encode h.wf]

theorem emitted_asmCalc (g : Grade) : Emitted ninst (asmCalc g) (.calculate g) :=
  ⟨rfl, rfl, nofun, nofun⟩

theorem instOk_ofNat {a : Nat} (ha : a < ninst) (ha4 : a < 4) : instOk ninst (BitVec.ofNat 2 a) = true := by
  rwa [instOk_iff, BitVec.toNat_ofNat, Nat.mod_eq_of_lt ha4]

theorem emitted_asmInit {a : Nat} {g : Grade} (h : asmInit ninst a g = some c) : ∃ i, Emitted ninst c i := by
  unfold asmInit at h
  split at h
  case isFalse => cases h
  case isTrue hr =>
    cases h
    exact ⟨.init _ g, rfl, instOk_ofNat hr.1 hr.2, nofun, nofun⟩

theorem emitted_asmWrite {a b n : Nat} {bytes : List Nat} (h : asmWrite ninst a b n bytes = some c) :
    ∃ i, Emitted ninst c i := by
  unfold asmWrite at h
  split at h
  case isFalse => cases h
  case isTrue hr =>
    cases h
    obtain ⟨ha, ha4, -, hn, hlen, -⟩ := hr
    refine ⟨.write _ _ _, rfl, instOk_ofNat ha ha4, nofun, ?_⟩
    rintro _ _ _ ⟨⟩
    rw [List.length_map, hlen, BitVec.toNat_ofNat, Nat.mod_eq_of_lt hn]

/-- One line's command, put before the commands of the lines that follow it. -/
theorem emitted_cons {x : Option Command} {xs : Option (List Command)} (hx : ∀ c, x = some c → ∃ i, Emitted ninst c i)
    (hxs : ∀ cs, xs = some cs → ∀ c ∈ cs, ∃ i, Emitted ninst c i) :
    ∀ cs, (do return (← x) :: (← xs)) = some cs → ∀ c ∈ cs, ∃ i, Emitted ninst c i := by
  cases x with
  | none => nofun
  | some y =>
    cases xs with
    | none => nofun
    | some ys =>
      rintro _ ⟨⟩
      exact List.forall_mem_cons.2 ⟨hx y rfl, hxs ys rfl⟩

theorem emitted_asmCommands (ls : List AsmLine) :
    ∀ cs, asmCommands ninst ls = some cs → ∀ c ∈ cs, ∃ i, Emitted ninst c i := by
  fun_induction asmCommands ninst ls with
  | case1 => rintro _ ⟨⟩ _ ⟨⟩
  | case2 g ls ih => exact emitted_cons (x := some (asmCalc g)) (by rintro _ ⟨⟩; exact ⟨_, emitted_asmCalc g⟩) ih
  | case3 a g ls ih => exact emitted_cons (fun _ => emitted_asmInit) ih
  | case4 a b n bytes ls ih => exact emitted_cons (fun _ => emitted_asmWrite) ih
  | case5 a b n m v ls _ ih => exact emitted_cons (fun _ => emitted_asmWrite) ih
  | case6 => nofun
  | case7 a b ls _ _ ih => exact emitted_cons (fun _ => emitted_asmWrite) ih
  | case8 => nofun

/-- Settles O7: every command the assembler emits is one of `emitted_asmCommands`, and its descriptor decodes back. -/
theorem assemblerEmitsNoReserved : Obligations.AssemblerEmitsNoReserved := by
  unfold Obligations.AssemblerEmitsNoReserved
  intro ninst lines cs h c hc
  obtain ⟨ls, -, hls⟩ := Option.bind_eq_some_iff.1 h
  obtain ⟨i, hi⟩ := emitted_asmCommands _ cs hls c hc
  rw [hi.decode]
  exact ⟨hi.valid, hi.payload⟩

/-- Settles O8: `asmExpand` makes the same two lines of both. -/
theorem sendExpands : Obligations.SendExpands := by
  unfold Obligations.SendExpands
  intro ninst a b bytes before after
  rw [List.flatMap_append, List.flatMap_append]
  rfl

/-! ## A command acts as its descriptor (R75, R78) -/

/-- Two commands that agree in IDLE agree: while BUSY neither is read. -/
theorem exec_congr_of_idle {i j : Instr} (h : s.STATE = .IDLE → exec i s = exec j s) : exec i s = exec j s := by
  by_cases h0 : s.STATE = .IDLE
  · exact h h0
  · rw [exec_busy i h0, exec_busy j h0]

/-! A term that names no instance is the reserved descriptor its words are (log 21). -/

theorem dispatchInit_unnamed {a : BitVec 2} (g : Grade) (h : instOk s.cfg.ninst a = false) :
    dispatchInit a g s = dispatchReserved (encode (.init a g)) s := by
  simp [dispatchInit, dispatchReserved, encode, h]

theorem dispatchWrite_unnamed {a : BitVec 2} (b : BitVec 16) (n : BitVec 32) (h : instOk s.cfg.ninst a = false) :
    dispatchWrite a b n s = dispatchReserved (encode (.write a b n)) s := by
  simp [dispatchWrite, dispatchReserved, encode, h]

theorem exec_ill_formed {i : Instr} (hw : i.wf s.cfg.ninst = false) (hi : ∀ d, i ≠ .reserved d) :
    exec i s = exec (.reserved (encode i)) s := by
  refine exec_congr_of_idle fun h0 => ?_
  rw [exec_reserved _ h0]
  cases i with
  | calculate g => cases hw
  | init a g => exact (exec_init a g h0).trans (congrArg _ (dispatchInit_unnamed g hw))
  | write a b n => exact (exec_write a b n h0).trans (congrArg _ (dispatchWrite_unnamed b n hw))
  | reserved d => exact absurd rfl (hi d)

/-- Settles O21: a well-formed term is what its descriptor decodes to; an ill-formed one decodes to RESERVED, as which it
acts. -/
theorem execRespectsEncoding : Obligations.ExecRespectsEncoding := by
  unfold Obligations.ExecRespectsEncoding
  intro s i hi
  cases hw : i.wf s.cfg.ninst with
  | true => rw [decode_encode hw]
  | false => rw [decode_reserved (by rw [descReserved_encode hi, hw]; rfl), exec_ill_formed hw hi]

/-- Settles O13, by the law of RESERVED in IDLE: its dispatch latches the fields and finishes. -/
theorem reservedFinishesInvalid : Obligations.ReservedFinishesInvalid := by
  unfold Obligations.ReservedFinishesInvalid
  exact fun _ d h0 => exec_reserved d h0

end Sys2Proof.Machine
end

section
/-! PROOFS. 40_timing_calc.md: the calculator's answers, the dispatch of CALC and INIT, and what a read and a write of INIT
make of the state (R100 to R112). -/

namespace Sys2Proof.Machine

variable {s : State}

/-! ## The calculator (R100, R101) -/

@[simp] theorem tcalc_std : tcalc 0b00#2 = ⟨true, 0x10240F13#32⟩ := by decide
@[simp] theorem tcalc_fast : tcalc 0b01#2 = ⟨true, 0x00130309#32⟩ := by decide
@[simp] theorem tcalc_fastPlus : tcalc 0b10#2 = ⟨true, 0x00010306#32⟩ := by decide
@[simp] theorem tcalc_reserved : tcalc 0b11#2 = ⟨false, 0x00000000#32⟩ := by decide

/-- Settles O9: the calculator's answer to each of the four codes. -/
theorem tcalcWords : Obligations.TcalcWords := by
  unfold Obligations.TcalcWords
  exact ⟨tcalc_std, tcalc_fast, tcalc_fastPlus, tcalc_reserved⟩

/-- Settles O10, row by row: the calculator's word of the row's grade, cut at R36's positions. -/
theorem timingFieldsOfTheTable : Obligations.TimingFieldsOfTheTable := by
  unfold Obligations.TimingFieldsOfTheTable
  intro g presc scldel sdadel sclh scll hrow
  simp only [List.mem_cons, List.not_mem_nil, or_false, Prod.mk.injEq] at hrow
  obtain ⟨rfl, rfl, rfl, rfl, rfl, rfl⟩ | ⟨rfl, rfl, rfl, rfl, rfl, rfl⟩ | ⟨rfl, rfl, rfl, rfl, rfl, rfl⟩ := hrow
  · rw [tcalc_std]; decide
  · rw [tcalc_fast]; decide
  · rw [tcalc_fastPlus]; decide

theorem tcalc_valid (g : BitVec 2) : (tcalc g).valid = (g != 0b11#2) := by
  obtain rfl | rfl | rfl | rfl := op_cases g
  · rw [tcalc_std]; rfl
  · rw [tcalc_fast]; rfl
  · rw [tcalc_fastPlus]; rfl
  · rw [tcalc_reserved]; rfl

/-- Settles O11: the port is a function of `calc_grade`, an input, which no step changes. -/
theorem calculatorPortCombinational : Obligations.CalculatorPortCombinational := by
  unfold Obligations.CalculatorPortCombinational
  refine ⟨fun s => ⟨tcalc_valid s.calcGrade, rfl⟩, fun s t h => ?_⟩
  obtain ⟨-, hgrade, -⟩ := inputsAreTheHosts s t h
  rw [calcValid, calcTimingr, hgrade]
  exact ⟨rfl, rfl⟩

/-! ## The dispatch of CALC and INIT (R110 to R112) -/

/-- Settles O12: CALC's dispatch latches its fields, takes the grade's word and finishes. -/
theorem calcCompletes : Obligations.CalcCompletes := by
  unfold Obligations.CalcCompletes
  intro s g h0
  rw [exec_calc g h0]
  cases g with
  | std => rw [dispatchCalc, gradeCode, tcalc_std]; rfl
  | fast => rw [dispatchCalc, gradeCode, tcalc_fast]; rfl
  | fastPlus => rw [dispatchCalc, gradeCode, tcalc_fastPlus]; rfl

/-- `s` once the INIT `i`, `g` is dispatched from IDLE. -/
def initStarted (i : BitVec 2) (g : Grade) (s : State) : State :=
  { takeCommand s with
    OP := 1#2, INST := i, GRADE := gradeCode g, ADDR := 0#16, LEN := 0#32, STATE := .I_RST_RD1 }

theorem exec_init_started {i : BitVec 2} {g : Grade} (h0 : s.STATE = .IDLE) (hi : i.toNat < s.cfg.ninst) :
    exec (.init i g) s = .next (initStarted i g s) := by
  have hi : instOk (takeCommand s).cfg.ninst i = true := (instOk_iff _ _).2 hi
  rw [exec_init i g h0, dispatchInit, if_pos hi]
  rfl

/-- Settles O14: INIT's dispatch, the grade's code written out. -/
theorem initDispatch : Obligations.InitDispatch := by
  unfold Obligations.InitDispatch
  intro s i g h0 hi
  rw [exec_init_started h0 hi]
  cases g <;> rfl

/-! ## What a read or a write of INIT makes of the state -/

/-- `s` once the word at `a` is read into TMP, in the state `q` that comes next. -/
def tmpRead (a : Word) (q : FsmState) (s : State) : State :=
  { s with
    TMP := answer s
    STATE := q
    replies := s.replies.tail
    draws := if s.replies = [] then s.draws + 1 else s.draws
    events := s.events ++ [.rd a (answer s)] }

/-- `s` once `v` is written at `a`, in the state `q` that comes next. -/
def wordWritten (a v : Word) (q : FsmState) (s : State) : State :=
  { s with STATE := q, events := s.events ++ [.wr a v] }

theorem afterRead_tmp (a : Word) (q : FsmState) :
    { afterRead a s with TMP := answer s, STATE := q } = tmpRead a q s := by
  simp [afterRead, tmpRead]

/-- `s` once INIT has come to the state `q` by the bus events `es`, `r` its last answer, the answers `rs` left. -/
def initRun (q : FsmState) (r : Word) (rs : List Word) (es : List BusEvent) (s : State) : State :=
  { s with STATE := q, TMP := r, replies := rs, events := s.events ++ es }

/-- With the answer `r` scheduled no free value is drawn. -/
theorem tmpRead_cons {a r : Word} {rs : List Word} {q : FsmState} (hr : s.replies = r :: rs) :
    tmpRead a q s = initRun q r rs [.rd a r] s := by
  simp [tmpRead, initRun, hr, answer_cons hr]

theorem timingLoad_whole (h : s.cfg.legacyOrLoad = false) : timingLoad s = (tcalc s.GRADE).word := by
  simp [timingLoad, h]

theorem timingLoad_legacy (h : s.cfg.legacyOrLoad = true) : timingLoad s = s.TMP ||| (tcalc s.GRADE).word := by
  simp [timingLoad, h]

/-- `s` once the timing word `w` is loaded (R118). -/
def timingLoaded (x : Instance) (w : Word) (s : State) : State :=
  { wordWritten (x.base + s.cfg.offTimingr) w .I_PE_RD s with RES_TIMINGR := w }

end Sys2Proof.Machine
end

section
/-! PROOFS. INIT run step by step, one law for each busy state, then the reset pulse, the timing load, the enable, and the
whole command from its dispatch (40_timing_calc.md R113 to R121). -/

namespace Sys2Proof.Safety

open Sys2Proof.Machine

variable {s : State} {x : Instance} {r r1 r2 : Word} {rs : List Word}

/-! ## The steps of INIT (R113 to R120), each of which keeps `Runs` for the next one -/

theorem Runs.read {a : Word} {q : FsmState} (h : Runs s x) : Runs (tmpRead a q s) x :=
  ⟨h.config, h.undisturbed, h.named⟩

theorem Runs.write {a v : Word} {q : FsmState} (h : Runs s x) : Runs (wordWritten a v q s) x :=
  ⟨h.config, h.undisturbed, h.named⟩

theorem Runs.answered {q : FsmState} {es : List BusEvent} (h : Runs s x) : Runs (initRun q r rs es s) x :=
  ⟨h.config, h.undisturbed, h.named⟩

theorem Runs.loaded {w : Word} (h : Runs s x) : Runs (timingLoaded x w s) x :=
  ⟨h.config, h.undisturbed, h.named⟩

section
variable (h : Runs s x)
include h

theorem Runs.step_I_RST_RD1 (hs : s.STATE = .I_RST_RD1) :
    step s = .next (tmpRead s.cfg.rccApb1Rstr .I_RST_SET s) := by
  rw [h.step_eq (by simp [hs]), sequencer_I_RST_RD1 hs h.undisturbed.1, afterRead_tmp]

theorem Runs.step_I_RST_SET (hs : s.STATE = .I_RST_SET) :
    step s = .next (wordWritten s.cfg.rccApb1Rstr (s.TMP ||| bitMask x.rstBit) .I_RST_RD2 s) :=
  (h.step_eq (by simp [hs])).trans (sequencer_I_RST_SET hs h.undisturbed.1 h.named)

theorem Runs.step_I_RST_RD2 (hs : s.STATE = .I_RST_RD2) :
    step s = .next (tmpRead s.cfg.rccApb1Rstr .I_RST_CLR s) := by
  rw [h.step_eq (by simp [hs]), sequencer_I_RST_RD2 hs h.undisturbed.1, afterRead_tmp]

theorem Runs.step_I_RST_CLR (hs : s.STATE = .I_RST_CLR) :
    step s = .next (wordWritten s.cfg.rccApb1Rstr (s.TMP &&& ~~~bitMask x.rstBit)
      (if s.cfg.legacyOrLoad then .I_TIM_RD else .I_TIM_WR) s) :=
  (h.step_eq (by simp [hs])).trans (sequencer_I_RST_CLR hs h.undisturbed.1 h.named)

theorem Runs.step_I_TIM_RD (hs : s.STATE = .I_TIM_RD) :
    step s = .next (tmpRead (x.base + s.cfg.offTimingr) .I_TIM_WR s) := by
  rw [h.step_eq (by simp [hs]), sequencer_I_TIM_RD hs h.undisturbed.1 h.named, afterRead_tmp]
  rfl

theorem Runs.step_I_TIM_WR (hs : s.STATE = .I_TIM_WR) : step s = .next (timingLoaded x (timingLoad s) s) :=
  (h.step_eq (by simp [hs])).trans (sequencer_I_TIM_WR hs h.undisturbed.1 h.named)

theorem Runs.step_I_PE_RD (hs : s.STATE = .I_PE_RD) :
    step s = .next (tmpRead (x.base + s.cfg.offCr1) .I_PE_WR s) := by
  rw [h.step_eq (by simp [hs]), sequencer_I_PE_RD hs h.undisturbed.1 h.named, afterRead_tmp]
  rfl

theorem Runs.step_I_PE_WR (hs : s.STATE = .I_PE_WR) :
    step s = .next { wordWritten (x.base + s.cfg.offCr1) (s.TMP ||| bitMask s.cfg.peBit) .IDLE s with
      OUTCOME := .COMPLETE } :=
  (h.step_eq (by simp [hs])).trans (sequencer_I_PE_WR hs h.undisturbed.1 h.named)

end

/-- Settles O23, by the laws of the four states. -/
theorem resetPulseSteps : Obligations.ResetPulseSteps := by
  unfold Obligations.ResetPulseSteps
  intro s x hc hu hx
  have h : Runs s x := ⟨hc, hu, hx⟩
  exact ⟨h.step_I_RST_RD1, h.step_I_RST_SET, h.step_I_RST_RD2, h.step_I_RST_CLR⟩

/-- Settles O24, by the laws of the two states and the word loaded under each setting of LEGACY_OR_LOAD. -/
theorem timingLoadSteps : Obligations.TimingLoadSteps := by
  unfold Obligations.TimingLoadSteps
  intro s x hc hu hx
  have h : Runs s x := ⟨hc, hu, hx⟩
  refine ⟨h.step_I_TIM_RD, fun hs hl => ?_, fun hs hl => ?_⟩
  · rw [h.step_I_TIM_WR hs, timingLoad_whole hl]
    rfl
  · rw [h.step_I_TIM_WR hs, timingLoad_legacy hl]
    rfl

/-- Settles O25, by the laws of the two states. -/
theorem enableSteps : Obligations.EnableSteps := by
  unfold Obligations.EnableSteps
  intro s x hc hu hx
  have h : Runs s x := ⟨hc, hu, hx⟩
  exact ⟨h.step_I_PE_RD, h.step_I_PE_WR⟩

/-! ## INIT run from its dispatch (R112, R121) -/

section
variable (h : Runs s x)
include h

/-- The reset pulse, its reads answered `r1` and `r2`; LEGACY_OR_LOAD decides the state `q` after it. -/
theorem Runs.run_resetPulse {q : FsmState} (hs : s.STATE = .I_RST_RD1) (hr : s.replies = r1 :: r2 :: rs)
    (hq : (if s.cfg.legacyOrLoad then .I_TIM_RD else .I_TIM_WR) = q) :
    run 4 s = .next (initRun q r2 rs
      [.rd s.cfg.rccApb1Rstr r1, .wr s.cfg.rccApb1Rstr (r1 ||| (1#32 <<< x.rstBit)),
        .rd s.cfg.rccApb1Rstr r2, .wr s.cfg.rccApb1Rstr (r2 &&& ~~~(1#32 <<< x.rstBit))] s) := by
  rw [run_succ (h.step_I_RST_RD1 hs), run_succ (h.read.step_I_RST_SET rfl), run_succ (h.read.write.step_I_RST_RD2 rfl),
    run_one (h.read.write.read.step_I_RST_CLR rfl), tmpRead_cons hr, tmpRead_cons (r := r2) (rs := rs) rfl]
  simp [← hq, initRun, wordWritten, bitMask]

/-- The timing load with LEGACY_OR_LOAD = false: one step. -/
theorem Runs.run_wholeLoad (hs : s.STATE = .I_TIM_WR) (hl : s.cfg.legacyOrLoad = false) :
    run 1 s = .next (timingLoaded x (tcalc s.GRADE).word s) := by
  rw [run_one (h.step_I_TIM_WR hs), timingLoad_whole hl]

/-- The timing load with LEGACY_OR_LOAD = true, its read answered `r`. -/
theorem Runs.run_legacyLoad (hs : s.STATE = .I_TIM_RD) (hl : s.cfg.legacyOrLoad = true) (hr : s.replies = r :: rs) :
    run 2 s = .next (timingLoaded x (r ||| (tcalc s.GRADE).word)
      (initRun .I_TIM_WR r rs [.rd (x.base + s.cfg.offTimingr) r] s)) := by
  rw [run_succ (h.step_I_TIM_RD hs), tmpRead_cons hr, run_one (h.answered.step_I_TIM_WR rfl),
    timingLoad_legacy (s := initRun _ _ _ _ s) hl]
  rfl

/-- The enable, its read answered `r`, which ends the command. -/
theorem Runs.run_enable (hs : s.STATE = .I_PE_RD) (hr : s.replies = r :: rs) :
    run 2 s = .next { initRun .IDLE r rs [.rd (x.base + s.cfg.offCr1) r,
      .wr (x.base + s.cfg.offCr1) (r ||| (1#32 <<< s.cfg.peBit))] s with OUTCOME := .COMPLETE } := by
  rw [run_succ (h.step_I_PE_RD hs), tmpRead_cons hr, run_one (h.answered.step_I_PE_WR rfl)]
  simp [initRun, wordWritten, bitMask]

end

/-- Settles O15: the pulse, the load of the grade's word, the enable. -/
theorem initCompletes : Obligations.InitCompletes := by
  unfold Obligations.InitCompletes
  intro s i g x r1 r2 r4 rest h0 hu hc hl hx hr
  have h : Runs (initStarted i g s) x := ⟨hc, hu, hx⟩
  refine ⟨_, exec_init_started h0 (instanceOf_isSome.1 ⟨x, hx⟩), rfl, rfl, ?_⟩
  rw [run_add (j := 4) (h.run_resetPulse rfl hr (if_neg (Bool.eq_false_iff.1 hl))) 3,
    run_add (j := 1) (h.answered.run_wholeLoad rfl hl) 2,
    h.answered.loaded.run_enable rfl rfl]
  simp [initRun, timingLoaded, wordWritten, initStarted, initEvents]

/-- Settles O16: the pulse, the read and the load of the timing register, the enable. -/
theorem initCompletesLegacy : Obligations.InitCompletesLegacy := by
  unfold Obligations.InitCompletesLegacy
  intro s i g x r1 r2 r3 r4 rest h0 hu hc hl hx hr
  have h : Runs (initStarted i g s) x := ⟨hc, hu, hx⟩
  refine ⟨_, exec_init_started h0 (instanceOf_isSome.1 ⟨x, hx⟩), rfl, rfl, ?_⟩
  rw [run_add (j := 4) (h.run_resetPulse rfl hr (if_pos hl)) 4, run_add (j := 2) (h.answered.run_legacyLoad rfl hl rfl) 2,
    h.answered.answered.loaded.run_enable rfl rfl]
  simp [initRun, timingLoaded, wordWritten, initStarted, initEventsLegacy]

end Sys2Proof.Safety
end

section
/-! PROOFS. What the rule of a state makes of the running command and of the counters of a segment (41_write_sequencer.md
R134, R139; 40_timing_calc.md R116). -/

namespace Sys2Proof.Machine

open Sys2Proof.Safety (inInit inWrite inSegment)

variable {s t : State}

theorem inWrite_of_inSegment {q : FsmState} (h : inSegment q = true) : inWrite q = true := by
  cases q
  case W_NACK | W_TXE | W_DATA => rfl
  all_goals cases h

/-- A command that runs after the step ran before it, in a busy state of the same command. -/
theorem SeqNext.running (q : SeqNext s t) : (t.STATE ≠ .IDLE → s.STATE ≠ .IDLE) ∧
    (inInit t.STATE = true → inInit s.STATE = true) ∧ (inWrite t.STATE = true → inWrite s.STATE = true) := by
  cases q
  case idle => exact ⟨id, id, id⟩
  case rstClr hs _ _ => rw [hs]; exact ⟨nofun, fun _ => rfl, by split <;> nofun⟩
  case rstRd1 hs _ | rstRd2 hs _ | rstSet hs _ _ | timRd hs _ _ | timWr hs _ _ | peRd hs _ _ | peWr hs _ _ =>
    rw [hs]; exact ⟨nofun, fun _ => rfl, nofun⟩
  case addr hs _ _ | segEmpty hs _ _ _ | segBytes hs _ _ _ | nacked hs _ _ _ | notNacked hs _ _ _ | txeReady hs _ _ _
      | txeTimeout hs _ _ _ _ | txeWait hs _ _ _ _ | dataByte hs _ _ _ | dataLast hs _ _ _ _ | dataSeg hs _ _ _ _ =>
    rw [hs]; exact ⟨nofun, nofun, fun _ => rfl⟩

/-- I_TIM_RD is entered only with LEGACY_OR_LOAD (R116). -/
theorem SeqNext.legacy_read (q : SeqNext s t) (h : s.STATE = .I_TIM_RD → s.cfg.legacyOrLoad = true)
    (ht : t.STATE = .I_TIM_RD) : s.cfg.legacyOrLoad = true := by
  cases q
  case idle => exact h ht
  case rstClr =>
    by_contra hl
    simp [hl] at ht
  all_goals cases ht

/-- No rule goes to W_ADDR: only a dispatch does (R130). -/
theorem SeqNext.ne_W_ADDR (q : SeqNext s t) : t.STATE ≠ .W_ADDR := by
  intro ht
  have hw := q.running.2.2 (by rw [ht]; rfl)
  cases q
  case idle hs => simp [hs] at ht
  case rstClr hs _ _ => rw [hs] at hw; cases hw
  all_goals cases ht

/-- W_DATA moves both counters, wherever it goes on (R139). -/
theorem SeqNext.counters_W_DATA (q : SeqNext s t) (hs : s.STATE = .W_DATA) :
    t.IDX = s.IDX + 1#32 ∧ t.SEGLEFT = s.SEGLEFT - 1#8 := by
  cases q
  case dataByte | dataLast | dataSeg => exact ⟨rfl, rfl⟩
  all_goals simp_all only [reduceCtorEq]

/-- A segment of `segLen` bytes leaves REM - `segLen` of them, none exactly when it is the final one (R134). -/
theorem segment_opened {idx rem len : BitVec 32} (hsum : idx.toNat + rem.toNat = len.toNat) (hn : segLen rem ≠ 0) :
    idx.toNat + (BitVec.ofNat 8 (segLen rem)).toNat + (rem - BitVec.ofNat 32 (segLen rem)).toNat = len.toNat ∧
      BitVec.ofNat 8 (segLen rem) ≠ 0#8 ∧ (segFinal rem = true ↔ rem - BitVec.ofNat 32 (segLen rem) = 0#32) := by
  have hmax := segLen_le_segMax rem
  have hle := segLen_le_toNat rem
  have hleft : (BitVec.ofNat 8 (segLen rem)).toNat = segLen rem := by rw [BitVec.toNat_ofNat]; omega
  have hrest := segLen_sub_toNat rem
  refine ⟨by omega, fun h0 => hn (by rw [← hleft, h0]; rfl), ?_⟩
  rw [segFinal_iff, ← BitVec.toNat_inj, hrest, segLen, Config.segMax, BitVec.toNat_ofNat]
  omega

end Sys2Proof.Machine
end

section
/-! PROOFS. The invariant of the sequencer, clause by clause: a reset and the dispatch of a command set it up, and the rule
of every state keeps it (41_write_sequencer.md R145; 30_encoding.md R75). -/

namespace Sys2Proof.Safety

open Sys2Proof.Machine

variable {s t : State} {i : Instr}

/-! ## The clauses that speak of every state -/

/-- The parameters are a block's and POLLCNT is below a nonzero POLL_LIMIT. -/
structure Bounded (s : State) : Prop where
  config : configOk s.cfg = true
  poll : s.cfg.pollLimit ≠ 0#32 → s.POLLCNT.toNat < s.cfg.pollLimit.toNat

theorem SeqInv.bounded (h : SeqInv s) : Bounded s := ⟨h.config, h.poll_below_limit⟩

/-- A POLLCNT of 0 is below every nonzero POLL_LIMIT. -/
theorem bounded_of_pollcnt_zero (hc : configOk s.cfg = true) (h0 : s.POLLCNT = 0#32) : Bounded s :=
  ⟨hc, fun hp => by rw [h0]; exact Nat.pos_of_ne_zero fun hl => hp (BitVec.eq_of_toNat_eq hl)⟩

/-- A dispatch leaves the parameters and POLLCNT. -/
theorem Bounded.dispatched (h : Bounded s) (d : Dispatched s i t) : Bounded t := by
  obtain ⟨hc, hp⟩ := h
  have k := d.keeps
  constructor
  · rwa [k.cfg]
  · rwa [k.cfg, k.POLLCNT]

/-- POLLCNT is cleared before a wait and counted up only below POLL_LIMIT (R136, R137). -/
theorem Bounded.next (h : Bounded s) (q : SeqNext s t) : Bounded t := by
  have hcfg := q.inputs.cfg
  have hc : configOk t.cfg = true := by rw [hcfg]; exact h.config
  cases q
  case notNacked => exact bounded_of_pollcnt_zero hc rfl
  case txeWait hexp =>
    refine ⟨hc, fun hp => ?_⟩
    have hlimit : s.POLLCNT.toNat + 1 < s.cfg.pollLimit.toNat := by
      by_contra hle
      rw [(pollExpired_iff s.cfg s.POLLCNT).2 ⟨hp, Nat.le_of_not_lt hle⟩] at hexp
      cases hexp
    show (pollNext s.POLLCNT).toNat < s.cfg.pollLimit.toNat
    rw [pollNext_toNat]
    omega
  all_goals exact ⟨hc, h.poll⟩

/-! ## Where a command starts and where it ends -/

/-- In IDLE nothing else is asked. -/
theorem Bounded.seqInv_idle (h : Bounded s) (h0 : s.STATE = .IDLE) : SeqInv s where
  config := h.config
  instance_named hb := absurd h0 hb
  init_operands hq := by simp [h0, inInit] at hq
  legacy_read hq := by simp [h0] at hq
  write_operands hq := by simp [h0, inWrite] at hq
  write_start hq := by simp [h0] at hq
  segment_start hq := by simp [h0] at hq
  segment_bytes hq := by simp [h0, inSegment] at hq
  poll_below_limit := h.poll

theorem Bounded.seqInv_initStarted (h : Bounded s) (h1 : s.STATE = .I_RST_RD1) (hn : s.INST.toNat < s.cfg.ninst)
    (ho : s.OP = 1#2 ∧ s.GRADE ≠ 3#2) : SeqInv s where
  config := h.config
  instance_named _ := hn
  init_operands _ := ho
  legacy_read hq := by simp [h1] at hq
  write_operands hq := by simp [h1, inWrite] at hq
  write_start hq := by simp [h1] at hq
  segment_start hq := by simp [h1] at hq
  segment_bytes hq := by simp [h1, inSegment] at hq
  poll_below_limit := h.poll

theorem Bounded.seqInv_writeStarted (h : Bounded s) (h1 : s.STATE = .W_ADDR) (hn : s.INST.toNat < s.cfg.ninst)
    (ho : s.OP = 2#2 ∧ s.ADDR.toNat ≤ 1023 ∧ s.CR2_BASE = cr2Base s.cfg s.ADDR) (hl : s.REM = s.LEN ∧ s.IDX = 0#32) :
    SeqInv s where
  config := h.config
  instance_named _ := hn
  init_operands hq := by simp [h1, inInit] at hq
  legacy_read hq := by simp [h1] at hq
  write_operands _ := ho
  write_start _ := hl
  segment_start hq := by simp [h1] at hq
  segment_bytes hq := by simp [h1, inSegment] at hq
  poll_below_limit := h.poll

/-- Every way a command can go from IDLE ends in IDLE or starts an INIT or a WRITE with legal operands. -/
theorem Bounded.seqInv_dispatched (h : Bounded s) (d : Dispatched s i t) : SeqInv t := by
  have ht := h.dispatched d
  cases d
  case initStarted ha =>
    exact ht.seqInv_initStarted rfl ((instOk_iff ..).1 ha) ⟨rfl, gradeCode_ne_reserved _⟩
  case writeStarted ha hb =>
    exact ht.seqInv_writeStarted rfl ((instOk_iff ..).1 ha) ⟨rfl, hb, rfl⟩ ⟨rfl, rfl⟩
  case calculated | initUnnamed | writeBadAddress | writeUnnamed | reserved => exact ht.seqInv_idle rfl

/-! ## The counters (R134, R139, R145) -/

/-- In W_DATA neither counter wraps: IDX is below LEN and SEGLEFT is not 0. -/
theorem SeqInv.counters_W_DATA (h : SeqInv s) (hs : s.STATE = .W_DATA) :
    s.IDX.toNat < s.LEN.toNat ∧ (s.IDX + 1#32).toNat = s.IDX.toNat + 1 ∧
      (s.SEGLEFT - 1#8).toNat + 1 = s.SEGLEFT.toNat := by
  obtain ⟨hsum, hleft, -⟩ := h.segment_bytes (by rw [hs]; rfl)
  have hlen := s.LEN.isLt
  refine ⟨?_, ?_, ?_⟩ <;> bv_omega

/-- W_SEG is entered from the address phase, or from the last byte of a segment with bytes behind it. -/
theorem SeqInv.segment_start_next (h : SeqInv s) (q : SeqNext s t) (ht : t.STATE = .W_SEG) :
    t.IDX.toNat + t.REM.toNat = t.LEN.toNat ∧ (t.REM = 0#32 → t.LEN = 0#32) := by
  have hw := q.running.2.2 (by rw [ht]; rfl)
  cases q
  case idle => exact h.segment_start ht
  case addr hs _ _ =>
    obtain ⟨hrem, hidx⟩ := h.write_start hs
    show s.IDX.toNat + s.REM.toNat = s.LEN.toNat ∧ (s.REM = 0#32 → s.LEN = 0#32)
    simp [hrem, hidx]
  case dataSeg hs _ _ hl hf =>
    obtain ⟨-, hidx, hleft⟩ := h.counters_W_DATA hs
    obtain ⟨hsum, -, hfinal⟩ := h.segment_bytes (by rw [hs]; rfl)
    have hrem : s.REM ≠ 0#32 := fun h0 => by simp [hfinal.2 h0] at hf
    have hl : (s.SEGLEFT - 1#8).toNat = 0 := congrArg BitVec.toNat hl
    exact ⟨show (s.IDX + 1#32).toNat + s.REM.toNat = s.LEN.toNat by omega, fun h0 => absurd h0 hrem⟩
  case rstClr hs _ _ => rw [hs] at hw; cases hw
  all_goals cases ht

/-- Inside a segment the bytes sent, those left of the segment and those behind it add up to LEN. -/
theorem SeqInv.segment_bytes_next (h : SeqInv s) (q : SeqNext s t) (ht : inSegment t.STATE = true) :
    t.IDX.toNat + t.SEGLEFT.toNat + t.REM.toNat = t.LEN.toNat ∧ t.SEGLEFT ≠ 0#8 ∧ (t.FINAL = true ↔ t.REM = 0#32) := by
  have hw := q.running.2.2 (inWrite_of_inSegment ht)
  cases q
  case idle => exact h.segment_bytes ht
  case segBytes hs _ _ hn => exact segment_opened (h.segment_start hs).1 hn
  case notNacked hs _ _ _ | txeReady hs _ _ _ | txeWait hs _ _ _ _ => exact h.segment_bytes (by rw [hs]; rfl)
  case dataByte hs _ _ hl =>
    obtain ⟨-, hidx, hleft⟩ := h.counters_W_DATA hs
    obtain ⟨hsum, -, hfinal⟩ := h.segment_bytes (by rw [hs]; rfl)
    exact ⟨show (s.IDX + 1#32).toNat + (s.SEGLEFT - 1#8).toNat + s.REM.toNat = s.LEN.toNat by omega, hl, hfinal⟩
  case rstClr hs _ _ => rw [hs] at hw; cases hw
  all_goals cases ht

/-! ## Every step -/

/-- The rule of every state keeps the invariant, clause by clause. -/
theorem SeqInv.next (h : SeqInv s) (q : SeqNext s t) : SeqInv t := by
  obtain ⟨hop, hinst, hgrade, haddr, -⟩ := q.command_registers
  obtain ⟨hbusy, hinit, hwrite⟩ := q.running
  have hcfg := q.inputs.cfg
  have hb := h.bounded.next q
  exact {
    config := hb.config
    instance_named := fun ht => by rw [hinst, hcfg]; exact h.instance_named (hbusy ht)
    init_operands := fun ht => by rw [hop, hgrade]; exact h.init_operands (hinit ht)
    legacy_read := fun ht => by rw [hcfg]; exact q.legacy_read h.legacy_read ht
    write_operands := fun ht => by rw [hop, haddr, hcfg, q.CR2_BASE]; exact h.write_operands (hwrite ht)
    write_start := fun ht => absurd ht q.ne_W_ADDR
    segment_start := h.segment_start_next q
    segment_bytes := h.segment_bytes_next q
    poll_below_limit := hb.poll }

/-- Settles O57: a reset and the dispatch of any command set the invariant up, and the rule of every state keeps it. -/
theorem stepKeepsInvariant : Obligations.StepKeepsInvariant := by
  unfold Obligations.StepKeepsInvariant
  intro s t h hstep
  obtain ⟨-, ⟨-, rfl⟩ | ⟨-, h0, i, -, he⟩ | ⟨-, -, hq⟩⟩ := step_next_cases hstep
  · exact (bounded_of_pollcnt_zero (s := resetRegs s) h.config rfl).seqInv_idle rfl
  · exact h.bounded.seqInv_dispatched (exec_idle_next h0 he)
  · exact h.next (sequencer_next hq)

/-- Settles O58: the step is W_DATA's rule, whose two counters do not wrap under the invariant. -/
theorem dataStepNeverWraps : Obligations.DataStepNeverWraps := by
  unfold Obligations.DataStepNeverWraps
  intro s t h hr hs hstep
  rw [step_busy h.config hr (by simp [hs])] at hstep
  obtain ⟨hidx, hleft⟩ := (sequencer_next hstep).counters_W_DATA hs
  rw [hidx, hleft]
  exact h.counters_W_DATA hs

end Sys2Proof.Safety
end

section
/-! PROOFS. The steps of WRITE as 41_write_sequencer.md R130 to R139 state them: the two dispatches, then one law for each
busy state. -/

namespace Sys2Proof.Machine

variable {s : State} {c : Config} {base : Word}

theorem afterRead_eq (a : Word) : afterRead a s = { s with
    replies := s.replies.tail
    draws := if s.replies = [] then s.draws + 1 else s.draws
    events := s.events ++ [.rd a (answer s)] } := by
  simp [afterRead]

/-! ## Segments by the number of bytes left (R134) -/

theorem segLen_full {r : BitVec 32} (h : 255 < r.toNat) : segLen r = 255 := Nat.min_eq_right h.le

theorem segLen_rest {r : BitVec 32} (h : r.toNat ≤ 255) : segLen r = r.toNat := Nat.min_eq_left h

theorem segFinal_full {r : BitVec 32} (h : 255 < r.toNat) : segFinal r = false := decide_eq_false (Nat.not_le.2 h)

theorem segFinal_rest {r : BitVec 32} (h : r.toNat ≤ 255) : segFinal r = true := (segFinal_iff r).2 h

/-- The word of a segment of 255 bytes with bytes behind it: NBYTES all ones, RELOAD. -/
theorem segWord_full : segWord c base 255 false =
    base ||| 0x00FF0000#32 ||| (1#32 <<< c.reloadBit) ||| (1#32 <<< c.startBit) := rfl

theorem segWord_final (n : Nat) : segWord c base n true =
    base ||| (BitVec.ofNat 32 n <<< 16) ||| (1#32 <<< c.autoendBit) ||| (1#32 <<< c.startBit) := rfl

/-- The counter of a wait, as R137 writes its saturation. -/
theorem pollNext_eq (p : BitVec 32) : pollNext p = if p = 0xFFFFFFFF#32 then 0xFFFFFFFF#32 else p + 1#32 := by
  apply BitVec.eq_of_toNat_eq
  rw [pollNext_toNat]
  split
  case isTrue h => rw [h]; rfl
  case isFalse h => bv_omega

end Sys2Proof.Machine

namespace Sys2Proof.Safety

open Sys2Proof.Machine

variable {s : State} {x : Instance}

/-! ## The dispatch (R130 to R132) -/

/-- Settles O17: the dispatch latches the fields, and the address check ends the command. -/
theorem writeInvalidAddress : Obligations.WriteInvalidAddress := by
  unfold Obligations.WriteInvalidAddress
  intro s i a n h0 hi ha
  have hi : instOk (takeCommand s).cfg.ninst i = true := (instOk_iff ..).2 hi
  have ha : Config.addr10Max < a.toNat := ha
  rw [exec_write _ _ _ h0, dispatchWrite, if_pos hi, if_pos ha]
  rfl

/-- Settles O18: the dispatch of a WRITE that starts, `cr2Base` written out. -/
theorem writeDispatch : Obligations.WriteDispatch := by
  unfold Obligations.WriteDispatch
  intro s i a n h0 hi ha
  exact exec_write_started h0 hi ha

/-! ## One law for each busy state -/

section
variable (h : Runs s x)
include h

theorem Runs.step_W_ADDR (hs : s.STATE = .W_ADDR) : step s = .next { s with
    STATE := .W_SEG, events := s.events ++ [.wr (x.base + s.cfg.offCr2) s.CR2_BASE] } :=
  (h.step_eq (by simp [hs])).trans (sequencer_W_ADDR hs h.undisturbed.1 h.named)

/-- A segment of `n` bytes starts; with no byte the command ends. -/
theorem Runs.step_W_SEG {n : Nat} {fin : Bool} (hs : s.STATE = .W_SEG) (hn : segLen s.REM = n)
    (hf : segFinal s.REM = fin) : step s = .next { s with
      FINAL := fin
      SEGLEFT := BitVec.ofNat 8 n
      REM := s.REM - BitVec.ofNat 32 n
      OUTCOME := if n = 0 then .COMPLETE else s.OUTCOME
      STATE := if n = 0 then .IDLE else .W_NACK
      events := s.events ++ [.wr (x.base + s.cfg.offCr2) (segWord s.cfg s.CR2_BASE n fin)] } := by
  subst hn hf
  rw [h.step_eq (by simp [hs]), sequencer_W_SEG hs h.undisturbed.1 h.named]
  by_cases hn : segLen s.REM = 0
  · simp only [if_pos hn]
    rfl
  · simp only [if_neg hn]
    rfl

end

/-- Settles O26, by the law of W_ADDR. -/
theorem addressPhaseStep : Obligations.AddressPhaseStep := by
  unfold Obligations.AddressPhaseStep
  intro s x hc hu hx hs
  exact Runs.step_W_ADDR ⟨hc, hu, hx⟩ hs

/-- Settles O27, by the law of W_SEG: a full segment, the last bytes, no byte. -/
theorem segmentStep : Obligations.SegmentStep := by
  unfold Obligations.SegmentStep
  intro s x hc hu hx hs
  have h : Runs s x := ⟨hc, hu, hx⟩
  refine ⟨fun hr => ?_, fun hr h0 => ?_, fun h0 => ?_⟩
  · rw [h.step_W_SEG hs (segLen_full hr) (segFinal_full hr)]
    rfl
  · have h0 : s.REM.toNat ≠ 0 := fun hn => h0 (BitVec.eq_of_toNat_eq hn)
    rw [h.step_W_SEG hs (segLen_rest hr) (segFinal_rest hr), segWord_final]
    simp [h0]
  · rw [h.step_W_SEG (n := 0) (fin := true) hs (by rw [h0]; rfl) (by rw [h0]; rfl), segWord_final]
    simp [h0]

/-- Settles O28: the rule of W_NACK, with NACKF read 1 and 0. -/
theorem nackCheckStep : Obligations.NackCheckStep := by
  unfold Obligations.NackCheckStep
  intro s x hc hu hx hs
  rw [Runs.step_eq ⟨hc, hu, hx⟩ (by simp [hs]), sequencer_W_NACK hs hu.1 hx, afterRead_eq]
  refine ⟨fun hn => ?_, fun hn => ?_⟩
  · have hn : nackfOf s.cfg (answer s) = true := hn
    rw [if_pos hn]
    rfl
  · have hn : nackfOf s.cfg (answer s) = false := hn
    rw [if_neg (by simp [hn])]
    rfl

/-- Settles O29: the rule of W_TXE, with TXE read 1, and read 0 at the limit and below it. -/
theorem txeWaitStep : Obligations.TxeWaitStep := by
  unfold Obligations.TxeWaitStep
  intro s x hc hu hx hs
  rw [Runs.step_eq ⟨hc, hu, hx⟩ (by simp [hs]), sequencer_W_TXE hs hu.1 hx, afterRead_eq]
  refine ⟨fun ht => ?_, fun ht h0 hle => ?_, fun ht hlt => ?_⟩
  · have ht : txeOf s.cfg (answer s) = true := ht
    rw [if_pos ht]
    rfl
  · have ht : txeOf s.cfg (answer s) = false := ht
    rw [if_neg (by simp [ht]), if_pos ((pollExpired_iff ..).2 ⟨h0, hle⟩)]
    rfl
  · have ht : txeOf s.cfg (answer s) = false := ht
    have hp : ¬ pollExpired s.cfg s.POLLCNT = true := by
      rw [pollExpired_iff]
      rintro ⟨h0, hle⟩
      exact Nat.not_lt.2 hle (hlt.resolve_left h0)
    rw [if_neg (by simp [ht]), if_neg hp, pollNext_eq, ← hs]
    rfl

/-- Settles O30: the step of W_DATA writes the byte, and `afterByte` says where it goes on. -/
theorem dataStep : Obligations.DataStep := by
  unfold Obligations.DataStep
  intro s x b hc hu hx hs hb
  rw [step_W_DATA ⟨hc, hu, hx⟩ hs hb]
  refine ⟨fun hl => ?_, fun hl hf => ?_, fun hl hf => ?_⟩
  · have hl : (byteWritten x b s).SEGLEFT ≠ 0#8 := fun h0 => hl (BitVec.sub_eq_iff_eq_add.1 h0)
    rw [afterByte, if_pos hl]
    rfl
  · simp [afterByte, byteWritten, finish, hl, hf]
  · simp [afterByte, byteWritten, hl, hf]

end Sys2Proof.Safety
end

section
/-! PROOFS. The waits for TXE and the whole runs of WRITE (41_write_sequencer.md R138, R144 to R148). -/

namespace Sys2Proof.Safety

open Sys2Proof.Machine

variable {s : State} {x : Instance} {r : Word} {rs ws rest : List Word} {n j : Nat} {bs : List ByteRun}

/-! ## The waits for TXE (R137, R138, R146) -/

theorem step_txeTimeout (hx : Runs s x) (hr : s.replies = r :: rs) (hs : s.STATE = .W_TXE)
    (ht : txeOf s.cfg r = false) (hp : pollExpired s.cfg s.POLLCNT = true) :
    step s = .next (finish .TIMEOUT (isrRead x r rs .W_TXE s.POLLCNT s)) := by
  have ht : r.getLsbD s.cfg.txeBit = false := ht
  rw [hx.step_eq (by simp [hs]), sequencer_W_TXE_answered hs hx.undisturbed.1 hx.named hr]
  simp only [ht, hp]
  rfl

/-- Settles O36: with POLL_LIMIT = 0 no TXE = 0 answer ends the wait (`run_waits`). -/
theorem unboundedPollingHangs : Obligations.UnboundedPollingHangs := by
  unfold Obligations.UnboundedPollingHangs
  intro s x ws rest hc hu hx hs hp hw hr
  rw [run_waits ws ⟨hc, hu, hx⟩ hs hw (.inl hp) hr, waited, pollAfter, ← hs]

/-- The TXE = 0 answer with which a wait reaches POLL_LIMIT ends the command, and no read follows it. -/
theorem run_timeout (hx : Runs s x) (hs : s.STATE = .W_TXE) (hw : ∀ w ∈ ws ++ [r], txeOf s.cfg w = false)
    (hl : s.POLLCNT.toNat + ws.length + 1 = s.cfg.pollLimit.toNat) (hr : s.replies = ws ++ [r] ++ rest) :
    run (ws.length + 1) s = .next { s with
      OUTCOME := .TIMEOUT
      STATE := .IDLE
      POLLCNT := s.cfg.pollLimit - 1#32
      replies := rest
      events := s.events ++ (ws ++ [r]).map fun r => .rd (x.base + s.cfg.offIsr) r } := by
  rw [List.append_assoc, List.singleton_append] at hr
  rw [List.forall_mem_append, List.forall_mem_singleton] at hw
  obtain ⟨hwaits, hlast⟩ := hw
  have hlimit := s.cfg.pollLimit.isLt
  have hpoll : pollAfter s.POLLCNT ws.length = s.cfg.pollLimit - 1#32 := by
    rw [pollAfter, Nat.min_eq_left (by omega)]
    bv_omega
  have hexp : pollExpired s.cfg (pollAfter s.POLLCNT ws.length) = true := by
    rw [pollExpired_iff, hpoll]
    constructor <;> bv_omega
  rw [run_add (run_waits ws hx hs hwaits (.inr (by omega)) hr),
    run_one (step_txeTimeout hx.waited rfl rfl hlast hexp)]
  simp [finish, isrRead, waited, hpoll]

/-- Settles O35: the NACK check clears POLLCNT, and the wait ends at its L-th TXE = 0 read. -/
theorem pollLimitGivesTimeout : Obligations.PollLimitGivesTimeout := by
  unfold Obligations.PollLimitGivesTimeout
  intro s x nack ws rest hc hu hx hs hn hw h0 hl hr
  have h : Runs s x := ⟨hc, hu, hx⟩
  obtain rfl | ⟨us, w, rfl⟩ := ws.eq_nil_or_concat'
  · exact absurd (BitVec.eq_of_toNat_eq hl.symm) h0
  · rw [List.length_append, List.length_singleton] at hl ⊢
    rw [Nat.add_comm, run_succ (step_notNacked h hr hs hn), run_timeout h.isrRead rfl hw (by simpa [isrRead] using hl) rfl]
    simp [isrRead]

/-! ## A WRITE that completes (R144, R147) -/

/-- Settles O19, by the run of a WRITE that completes. -/
theorem writeCompletes : Obligations.WriteCompletes := by
  unfold Obligations.WriteCompletes
  intro s i a n x bs rest h0 hu hc hx ha hn hp hr hs
  obtain ⟨hexec, hrun⟩ := WriteSends.run_write ⟨h0, hu, hc, hx, ha, hn, hp, hr, hs⟩
  refine ⟨_, hexec, rfl, rfl, hrun.trans ?_⟩
  unfold writeDone pollSent
  cases bs.getLast? <;> simp [pollAfter]

/-- Settles O32: the run takes as many steps as it makes events. -/
theorem writeEventCount : Obligations.WriteEventCount := by
  unfold Obligations.WriteEventCount
  intro s i a n x bs rest h
  obtain ⟨hexec, hrun⟩ := h.run_write
  have hk := writeEvents_length (c := s.cfg) (x := x) (base := cr2Base s.cfg a) bs
  rw [writeSteps, ← h.length] at hk
  rw [hk] at hrun
  refine ⟨_, _, hexec, hrun, rfl, rfl, ?_⟩
  rw [← hk]
  exact List.length_append

theorem nseg_ne_zero (n : Nat) : nseg n ≠ 0 := by
  unfold nseg; split <;> omega

/-- The segment words of `n` bytes: all but the last are of 255 bytes. -/
theorem segmentWords_nseg (c : Config) (base : Word) (n : Nat) : segmentWords c base n (nseg n) =
    List.replicate (nseg n - 1) (segWord c base 255 false) ++ [segWord c base (n - 255 * (nseg n - 1)) true] := by
  cases h : nseg n with
  | zero => exact absurd h (nseg_ne_zero n)
  | succ m => rw [segmentWords, h, Nat.add_sub_cancel]

/-- Settles O33: the run makes the events of R147, whose CR2 words are the address word and the segment words. -/
theorem segmentWordsOfWrite : Obligations.SegmentWordsOfWrite := by
  unfold Obligations.SegmentWordsOfWrite
  intro s i a n x bs rest h hne
  obtain ⟨hexec, hrun⟩ := h.run_write
  rw [writeEvents_length] at hrun
  refine ⟨_, _, writeEvents s.cfg x (cr2Base s.cfg a) bs, hexec, hrun, rfl, rfl, rfl, ?_⟩
  rw [writeEvents_writesAt_cr2 hne, ← h.length, segmentWords_nseg]
  rfl

/-! ## A NACK at a byte (R148) -/

theorem step_nacked (hx : Runs s x) (hr : s.replies = r :: rs) (hs : s.STATE = .W_NACK)
    (hn : nackfOf s.cfg r = true) : step s = .next (finish .ABORTED_NACK (isrRead x r rs .W_NACK s.POLLCNT s)) := by
  have hn : r.getLsbD s.cfg.nackfBit = true := hn
  rw [hx.step_eq (by simp [hs]), sequencer_W_NACK_answered hs hx.undisturbed.1 hx.named hr]
  simp only [hn]
  rfl

/-- The NACK check of byte `j` of `n` sees NACKF = 1: the segment word, where one is due, and the read are the last
events. -/
theorem run_nackedByte (hx : Runs s x) (hb : BeforeByte n j s) (hj : j < n) (hn : n < 2 ^ 32)
    (hr : s.replies = r :: rest) (ha : nackfOf s.cfg r = true) :
    run ((segmentEvent s.cfg x s.CR2_BASE n j).length + 1) s =
      .next (finish .ABORTED_NACK (isrRead x r rest .W_NACK s.POLLCNT (segOpen x n j s))) := by
  rw [run_add (run_segOpen hx hb hj hn)]
  exact run_one (step_nacked hx.segOpen hr rfl ha)

/-- `s` once `k` of `n` bytes are sent by the events `es`, POLLCNT at `p`, and byte `k` is NACKed by the answer `r`, the
answers `rest` left. -/
def nackedAt (x : Instance) (n k : Nat) (p : BitVec 32) (r : Word) (rest : List Word) (es : List BusEvent) (s : State) :
    State :=
  finish .ABORTED_NACK (isrRead x r rest .W_NACK p
    (segOpen x n k { s with IDX := BitVec.ofNat 32 k, events := s.events ++ es }))

/-- The bytes before the one that is NACKed, then its NACK check. -/
theorem SendsNext.run_nacked (h : SendsNext s x n j bs (r :: rest)) (hj : j + bs.length < n)
    (ha : nackfOf s.cfg r = true) :
    run ((bytesEvents s.cfg x s.CR2_BASE n j bs).length
      + ((segmentEvent s.cfg x s.CR2_BASE n (j + bs.length)).length + 1)) s =
      .next (nackedAt x n (j + bs.length) (pollSent s.POLLCNT bs) r rest (bytesEvents s.cfg x s.CR2_BASE n j bs) s) := by
  by_cases hne : bs = []
  · subst hne
    have hrun := run_nackedByte h.runs h.before hj h.width h.answers ha
    rw [bytesEvents, List.length_nil, Nat.zero_add]
    refine hrun.trans ?_
    show _ = Host.Outcome.next (finish _ (isrRead _ _ _ _ s.POLLCNT
      (segOpen x n j { s with IDX := BitVec.ofNat 32 j, events := s.events ++ [] })))
    rw [← h.before.index, List.append_nil]
  · rw [run_add (h.run_bytes hne)]
    exact run_nackedByte h.runs.sentTo (beforeByte_sentTo hj) hj h.width rfl ha

/-- Settles O20: the address phase, then the bytes before the NACKed one and its NACK check. -/
theorem writeNackAtByte : Obligations.WriteNackAtByte := by
  unfold Obligations.WriteNackAtByte
  intro s i a n x bs unsent r rest h0 hu hc hx ha hne hn hp hr hs hnack
  have hk : bs.length < n.toNat := by
    have := List.length_pos_iff.2 hne
    omega
  have hstart : Runs (writeStarted i a n s) x := ⟨hc, hu, hx⟩
  have hsends : SendsNext (addressed i a n x s) x n.toNat 0 bs (r :: rest) := {
    runs := ⟨hc, hu, hx⟩
    before := ⟨rfl, fun _ => ⟨rfl, by simp [addressed, writeStarted]⟩, fun h => absurd rfl h⟩
    payload := ⟨unsent, hp.symm⟩
    answers := hr
    sent := hs
    length := by omega
    width := n.isLt }
  have hrun := hsends.run_nacked (by omega) hnack
  rw [Nat.zero_add, ← run_succ (step_writeStarted hstart)] at hrun
  have hidx : (BitVec.ofNat 32 bs.length).toNat = bs.length := by
    rw [BitVec.toNat_ofNat, Nat.mod_eq_of_lt (hk.trans n.isLt)]
  refine ⟨_, _, exec_write_started h0 (instanceOf_isSome.1 ⟨x, hx⟩) ha, (congrArg (run · _) ?_).trans hrun, rfl, rfl, hidx,
    rfl, rfl, rfl, rfl, rfl, ?_⟩
  · exact (by omega : ∀ p q : Nat, 2 + p + q = p + (q + 1) + 1) _ _
  · simp [nackedAt, finish, isrRead, segOpen, addressed, writeStarted]

end Sys2Proof.Safety
end

section
/-! PROOFS. The CR2 words of a WRITE at the default bit positions (10_state.md R35): the fields of the address-phase word,
and the bits that are 0 in every word (41_write_sequencer.md R132, R149). -/

namespace Sys2Proof.Machine

open Sys2Proof.Safety (inWrite)

variable {s t : State} {x : Instance} {base v : Word} {a : BitVec 16} {k : Nat}

/-! ## The address-phase word (R132) -/

/-- A bit set above a word adds its weight. -/
theorem or_bitMask_toNat {w : Word} (hw : w.toNat < 2 ^ k) (hk : k < 32) :
    (w ||| bitMask k).toNat = w.toNat + 2 ^ k := by
  have hpow : 2 ^ k < 2 ^ 32 := Nat.pow_lt_pow_right (by decide) hk
  have hmask : (bitMask k).toNat = 2 ^ k * 1 := by
    rw [Nat.mul_one, ← Nat.mod_eq_of_lt hpow]
    exact BitVec.toNat_twoPow 32 k
  rw [BitVec.toNat_or, hmask, Nat.or_comm, ← Nat.two_pow_add_eq_or_of_lt hw, Nat.mul_one, Nat.add_comm]

/-- Up to 127: the shifted address and HEAD10R. -/
theorem cr2Base_default_7bit (ha : a.toNat ≤ 127) : (cr2Base Config.default a).toNat = 2 * a.toNat + 2 ^ 12 := by
  have hword : cr2Base Config.default a = a.setWidth 32 <<< 1 ||| bitMask 12 := by
    simp [cr2Base, ha, saddAt, bitAt, bitMask, Config.default, Config.addr7Max]
  have hsadd : (a.setWidth 32 <<< 1).toNat = 2 * a.toNat := by
    rw [BitVec.toNat_shiftLeft, BitVec.toNat_setWidth]
    omega
  rw [hword, or_bitMask_toNat (by omega) (by decide), hsadd]

/-- From 128 on: the address and ADD10. -/
theorem cr2Base_default_10bit (ha : 128 ≤ a.toNat) (ha' : a.toNat ≤ 1023) :
    (cr2Base Config.default a).toNat = a.toNat + 2 ^ 11 := by
  have h7 : ¬ a.toNat ≤ 127 := by omega
  have hword : cr2Base Config.default a = a.setWidth 32 ||| bitMask 11 := by
    simp [cr2Base, h7, saddAt, bitAt, bitMask, Config.default, Config.addr7Max]
  have hsadd : (a.setWidth 32).toNat = a.toNat := by
    rw [BitVec.toNat_setWidth]
    omega
  rw [hword, or_bitMask_toNat (by omega) (by decide), hsadd]

theorem getLsbD_eq_decide (w : Word) (k : Nat) : w.getLsbD k = decide (w.toNat / 2 ^ k % 2 = 1) :=
  Nat.testBit_eq_decide_div_mod_eq

/-- Settles O31, by the value of the word up to 127 and from 128 on. -/
theorem addressPhaseFields : Obligations.AddressPhaseFields := by
  unfold Obligations.AddressPhaseFields
  intro a ha w
  rw [getLsbD_eq_decide, getLsbD_eq_decide, getLsbD_eq_decide, BitVec.extractLsb'_toNat, Nat.shiftRight_zero]
  by_cases h7 : a.toNat ≤ 127
  · have hw : w.toNat = 2 * a.toNat + 2 ^ 12 := cr2Base_default_7bit h7
    rw [hw]
    exact ⟨fun _ => ⟨by omega, decide_eq_false (by omega), decide_eq_true (by omega)⟩, fun h => absurd h (by omega),
      decide_eq_false (by omega), by omega⟩
  · have hw : w.toNat = a.toNat + 2 ^ 11 := cr2Base_default_10bit (by omega) ha
    rw [hw]
    exact ⟨fun h => absurd h h7, fun _ => ⟨by omega, decide_eq_true (by omega), decide_eq_false (by omega)⟩,
      decide_eq_false (by omega), by omega⟩

/-! ## The bits that are 0 in every CR2 word (R149) -/

/-- RD_WRN, bits 14 and 15, and everything from bit 26 on. -/
def ZeroCr2Bit (k : Nat) : Prop := k = 10 ∨ k = 14 ∨ k = 15 ∨ 26 ≤ k

theorem cr2Base_default_getLsbD (ha : a.toNat ≤ 1023) (hk : ZeroCr2Bit k) :
    (cr2Base Config.default a).getLsbD k = false := by
  obtain ⟨-, -, hrd, hlt⟩ := addressPhaseFields a ha
  by_cases h10 : k = 10
  · rw [h10, hrd]
  · have hk : 13 ≤ k := by unfold ZeroCr2Bit at hk; omega
    exact Nat.testBit_lt_two_pow (hlt.trans_le (Nat.pow_le_pow_right (by decide) hk))

theorem bitMask_getLsbD_ne {n : Nat} (h : n ≠ k) : (bitMask n).getLsbD k = false := by
  have htwo : bitMask n = BitVec.twoPow 32 n := rfl
  rw [htwo, BitVec.getLsbD_twoPow, decide_eq_false h, Bool.and_false]

/-- NBYTES stands at bits 23:16. -/
theorem nbytes_getLsbD {n : Nat} (hn : n ≤ 255) (hk : ZeroCr2Bit k) : (BitVec.ofNat 32 n <<< 16).getLsbD k = false := by
  rw [BitVec.getLsbD_shiftLeft, BitVec.getLsbD_ofNat]
  unfold ZeroCr2Bit at hk
  by_cases h16 : k < 16
  · simp [h16]
  · have hbit : n.testBit (k - 16) = false :=
      Nat.testBit_lt_two_pow ((by omega : n < 2 ^ 8).trans_le (Nat.pow_le_pow_right (by decide) (by omega)))
    simp [hbit]

/-- A segment adds NBYTES, RELOAD or AUTOEND, and START to the word. -/
theorem segWord_default_getLsbD {n : Nat} (fin : Bool) (hn : n ≤ 255) (hk : ZeroCr2Bit k) :
    (segWord Config.default base n fin).getLsbD k = base.getLsbD k := by
  have hstart : (bitMask 13).getLsbD k = false := bitMask_getLsbD_ne (by unfold ZeroCr2Bit at hk; omega)
  have hend : (if fin then bitMask 25 else bitMask 24).getLsbD k = false := by
    split <;> exact bitMask_getLsbD_ne (by unfold ZeroCr2Bit at hk; omega)
  show (base ||| (BitVec.ofNat 32 n <<< 16) ||| (if fin then bitMask 25 else bitMask 24) ||| bitMask 13).getLsbD k = _
  simp only [BitVec.getLsbD_or, nbytes_getLsbD hn hk, hend, hstart, Bool.or_false]

/-! ## Which words a step writes to CR2 (R133, R134) -/

/-- Where CR2 is no other register the block writes, only W_ADDR and W_SEG write it: CR2_BASE, or a segment's word. -/
theorem SeqNext.cr2_word (q : SeqNext s t) (hx : instanceOf s.cfg s.INST = some x)
    (hrstr : x.base + s.cfg.offCr2 ≠ s.cfg.rccApb1Rstr)
    (hoff : s.cfg.offCr2 ∉ [s.cfg.offCr1, s.cfg.offTimingr, s.cfg.offTxdr])
    (he : t.events = s.events ++ [.wr (x.base + s.cfg.offCr2) v]) : inWrite s.STATE = true ∧
      (v = s.CR2_BASE ∨ v = segWord s.cfg s.CR2_BASE (segLen s.REM) (segFinal s.REM)) := by
  have other {o w : Word} (ho : o ∈ [s.cfg.offCr1, s.cfg.offTimingr, s.cfg.offTxdr])
      (h : BusEvent.wr (x.base + o) w = .wr (x.base + s.cfg.offCr2) v) : False :=
    hoff (add_left_cancel (BusEvent.wr.inj h).1 ▸ ho)
  cases q
  case idle => simp at he
  all_goals have he := List.head_eq_of_cons_eq (List.append_cancel_left he)
  case rstRd1 | rstRd2 | timRd | peRd | nacked | notNacked | txeReady | txeTimeout | txeWait => cases he
  case rstSet | rstClr => exact absurd (BusEvent.wr.inj he).1.symm hrstr
  all_goals obtain rfl := Option.some.inj (hx.symm.trans ‹_›)
  case timWr | peWr | dataByte | dataLast | dataSeg => exact (other (by simp) he).elim
  case addr => exact ⟨by rw [‹s.STATE = .W_ADDR›]; rfl, .inl (BusEvent.wr.inj he).2.symm⟩
  case segEmpty | segBytes => exact ⟨by rw [‹s.STATE = .W_SEG›]; rfl, .inr (BusEvent.wr.inj he).2.symm⟩

/-- Settles O37: a word written to CR2 is that of a legal address, with or without the fields of a segment. -/
theorem cr2WordsAreWriteTransfers : Obligations.Cr2WordsAreWriteTransfers := by
  unfold Obligations.Cr2WordsAreWriteTransfers
  intro s t x p l v inv hcfg hx hstep he
  obtain ⟨-, ⟨-, rfl⟩ | ⟨-, h0, i, -, hi⟩ | ⟨-, -, hq⟩⟩ := step_next_cases hstep
  · simp at he
  · simp [(exec_idle_next h0 hi).keeps.events] at he
  have hmem : x ∈ Config.default.instances := by
    have := instanceOf_mem hx
    rwa [hcfg] at this
  obtain ⟨-, hrstr, -⟩ := default_register x hmem Config.default.offCr2 (by simp [registerOffsets])
  obtain ⟨hwrite, hv⟩ := (sequencer_next hq).cr2_word hx (by rw [hcfg]; exact hrstr)
    (by rw [hcfg]; simp [Config.default]) he
  obtain ⟨-, haddr, hbase⟩ := inv.write_operands hwrite
  have hbase : s.CR2_BASE = cr2Base Config.default s.ADDR := by rw [hbase, hcfg]; rfl
  have zero {k : Nat} (hk : ZeroCr2Bit k) : v.getLsbD k = false := by
    obtain rfl | rfl := hv
    · rw [hbase, cr2Base_default_getLsbD haddr hk]
    · rw [hcfg]
      exact (segWord_default_getLsbD _ (segLen_le_segMax _) hk).trans (by rw [hbase, cr2Base_default_getLsbD haddr hk])
  exact ⟨zero (.inl rfl), zero (.inr (.inl rfl)), zero (.inr (.inr (.inl rfl))), fun k hk => zero (.inr (.inr (.inr hk)))⟩

end Sys2Proof.Machine
end

section
/-! PROOFS. 60_exceptions.md: in which step a command ends and with which outcome (R170, R173), and which outcome comes
first where a WRITE's descriptor is reserved and its address above 1023 (R175). -/

namespace Sys2Proof.Machine

variable {s t : State} {i : Instr}

/-! ## The steps that end a command (R170) -/

/-- What the decoder answers is well-formed, so a presented command names an instance where it needs one. -/
theorem presented_wf (h : presented s = some i) : i.wf s.cfg.ninst = true := by
  obtain ⟨c, -, rfl⟩ := Option.map_eq_some_iff.1 h
  exact (decode_wf_encode ..).1

/-- A well-formed command that ends in its dispatch step is a CALC, a WRITE above 1023 or RESERVED. -/
theorem Dispatched.ending (d : Dispatched s i t) (hw : i.wf s.cfg.ninst = true) (ht : t.STATE = .IDLE) :
    (∃ g, i = .calculate g ∧ t.OUTCOME = .COMPLETE)
      ∨ (∃ j a n, i = .write j a n ∧ 1023 < a.toNat ∧ t.OUTCOME = .INVALID_ADDRESS)
      ∨ (∃ d, i = .reserved d ∧ t.OUTCOME = .INVALID_COMMAND) := by
  cases d
  case calculated g => exact .inl ⟨g, rfl, rfl⟩
  case writeBadAddress j a n _ ha => exact .inr (.inl ⟨j, a, n, rfl, ha, rfl⟩)
  case reserved d => exact .inr (.inr ⟨d, rfl, rfl⟩)
  case initStarted | writeStarted => cases ht
  case initUnnamed ha | writeUnnamed ha => cases hw.symm.trans ha

/-- A busy state's rule that goes to IDLE is one of the five that call `finish`. -/
theorem SeqNext.ending (q : SeqNext s t) (hb : s.STATE ≠ .IDLE) (ht : t.STATE = .IDLE) :
    ((s.STATE = .I_PE_WR ∨ s.STATE = .W_SEG ∨ s.STATE = .W_DATA) ∧ t.OUTCOME = .COMPLETE)
      ∨ (s.STATE = .W_NACK ∧ t.OUTCOME = .ABORTED_NACK)
      ∨ (s.STATE = .W_TXE ∧ t.OUTCOME = .TIMEOUT ∧ s.cfg.pollLimit ≠ 0#32) := by
  cases q
  case idle h0 => exact absurd h0 hb
  case peWr hs _ _ => exact .inl ⟨.inl hs, rfl⟩
  case segEmpty hs _ _ _ => exact .inl ⟨.inr (.inl hs), rfl⟩
  case dataLast hs _ _ _ _ => exact .inl ⟨.inr (.inr hs), rfl⟩
  case nacked hs _ _ _ => exact .inr (.inl ⟨hs, rfl⟩)
  case txeTimeout hs _ _ _ hp => exact .inr (.inr ⟨hs, rfl, ((pollExpired_iff ..).1 hp).1⟩)
  case rstClr => split at ht <;> cases ht
  all_goals cases ht

/-- Settles O47: from IDLE the presented command's dispatch ended it, from a busy state the rule of that state. -/
theorem outcomeOfEachEnding : Obligations.OutcomeOfEachEnding := by
  unfold Obligations.OutcomeOfEachEnding
  intro s t h hr ht
  obtain ⟨-, ⟨hr', -⟩ | ⟨-, h0, i, hi, he⟩ | ⟨-, hnone, hq⟩⟩ := step_next_cases h
  · rw [hr] at hr'; cases hr'
  · refine ⟨fun hb => absurd h0 hb, fun _ j hj => ?_⟩
    obtain rfl := Option.some.inj (hi.symm.trans hj)
    exact (exec_idle_next h0 he).ending (presented_wf hi) ht
  · refine ⟨fun hb => (sequencer_next hq).ending hb ht, fun h0 j hj => ?_⟩
    cases (hnone h0).symm.trans hj

/-! ## INVALID_COMMAND before INVALID_ADDRESS (R175) -/

/-- R78's list for OP = 10: the address is not on it. -/
theorem descReserved_write_iff {ninst : Nat} {d : Desc} (ho : descOp d = 2#2) : descReserved ninst d = true ↔
    descRsv d ≠ 0#10 ∨ descGrade d ≠ 0#2 ∨ ninst ≤ (descInst d).toNat := by
  rw [descReserved_iff]
  simp [ho]

/-- Settles O48: the decoder rejects a reserved WRITE before the dispatch looks at its address; one it lets through meets
the address check. -/
theorem invalidCommandBeforeAddress : Obligations.InvalidCommandBeforeAddress := by
  unfold Obligations.InvalidCommandBeforeAddress
  intro s c cs hc hr h0 hq hop haddr
  have haddr : 1023 < (descAddr c.desc).toNat := haddr
  rw [step_presented hc hr hq]
  by_cases hlist : descRsv c.desc ≠ 0#10 ∨ descGrade c.desc ≠ 0#2 ∨ s.cfg.ninst ≤ (descInst c.desc).toNat
  · rw [decode_reserved ((descReserved_write_iff hop).2 hlist), exec_reserved _ h0]
    refine ⟨_, rfl, rfl, rfl, fun _ => rfl, fun hrsv hgrade hinst => ?_⟩
    exact absurd hlist (by simpa using ⟨hrsv, hgrade, hinst⟩)
  · obtain ⟨hrsv, hgrade, hinst⟩ : descRsv c.desc = 0#10 ∧ descGrade c.desc = 0#2 ∧
        (descInst c.desc).toNat < s.cfg.ninst := by simpa using hlist
    rw [(decode_eq_write_iff ..).2 ⟨hop, hrsv, hgrade, rfl, hinst, rfl, rfl⟩,
      Safety.writeInvalidAddress s _ _ _ h0 hinst haddr]
    exact ⟨_, rfl, rfl, rfl, fun h => absurd h hlist, fun _ _ _ => rfl⟩

end Sys2Proof.Machine
end

section
/-! PROOFS. Why a command finishes when POLL_LIMIT is not 0 (70_reset_and_hazards.md R200): every step of a busy state
lowers the bytes left to send, or keeps them and comes nearer to IDLE or to the next byte. -/

namespace Sys2Proof.Machine

variable {s t : State}

/-- The bytes of LEN not yet sent. -/
def bytesLeft (s : State) : Nat := s.LEN.toNat - s.IDX.toNat

/-- An upper bound on the steps the running command makes before the next byte is sent or it ends, when POLL_LIMIT is
not 0: INIT's states in their order, and WRITE's with the polls W_TXE may still make. -/
def stepsToByte (s : State) : Nat :=
  match s.STATE with
  | .IDLE => 0
  | .I_RST_RD1 => 8
  | .I_RST_SET => 7
  | .I_RST_RD2 => 6
  | .I_RST_CLR => 5
  | .I_TIM_RD => 4
  | .I_TIM_WR => 3
  | .I_PE_RD => 2
  | .I_PE_WR => 1
  | .W_ADDR => s.cfg.pollLimit.toNat + 5
  | .W_SEG => s.cfg.pollLimit.toNat + 4
  | .W_NACK => s.cfg.pollLimit.toNat + 3
  | .W_TXE => s.cfg.pollLimit.toNat - s.POLLCNT.toNat + 2
  | .W_DATA => 1

/-- A poll that is not the last allowed one is counted, and the count is still below POLL_LIMIT (R137). -/
theorem pollNext_lt_pollLimit {c : Config} {p : BitVec 32} (hl : c.pollLimit ≠ 0#32) (hp : pollExpired c p = false) :
    (pollNext p).toNat = p.toNat + 1 ∧ p.toNat + 1 < c.pollLimit.toNat := by
  have hlt : p.toNat + 1 < c.pollLimit.toNat := by
    by_contra hle
    rw [(pollExpired_iff c p).2 ⟨hl, Nat.le_of_not_lt hle⟩] at hp
    cases hp
  have hmax := c.pollLimit.isLt
  rw [pollNext_toNat]
  omega

/-- A step that neither stays in IDLE nor sends a byte comes nearer to the next byte or to the end. -/
theorem SeqNext.stepsToByte_lt (q : SeqNext s t) (hl : s.cfg.pollLimit ≠ 0#32) (h0 : s.STATE ≠ .IDLE)
    (hd : s.STATE ≠ .W_DATA) : stepsToByte t < stepsToByte s := by
  cases q
  case idle hs => exact absurd hs h0
  case dataByte hs _ _ _ | dataLast hs _ _ _ _ | dataSeg hs _ _ _ _ => exact absurd hs hd
  case rstClr hs _ _ => cases hload : s.cfg.legacyOrLoad <;> simp [stepsToByte, hs]
  case txeWait hs _ _ _ hp =>
    obtain ⟨hnext, hlt⟩ := pollNext_lt_pollLimit hl hp
    simp only [stepsToByte, hs, afterRead_cfg, hnext]
    omega
  case rstRd1 hs _ | rstRd2 hs _ | rstSet hs _ _ | timRd hs _ _ | timWr hs _ _ | peRd hs _ _ | peWr hs _ _ | addr hs _ _
      | segEmpty hs _ _ _ | segBytes hs _ _ _ | nacked hs _ _ _ | notNacked hs _ _ _ | txeReady hs _ _ _
      | txeTimeout hs _ _ _ _ =>
    simp [stepsToByte, hs, segStarted]

end Sys2Proof.Machine

namespace Sys2Proof.Safety

open Sys2Proof.Machine

variable {s t : State}

/-- W_DATA sends a byte. -/
theorem SeqInv.bytesLeft_lt (h : SeqInv s) (q : SeqNext s t) (hs : s.STATE = .W_DATA) : bytesLeft t < bytesLeft s := by
  obtain ⟨hlt, hidx, -⟩ := h.counters_W_DATA hs
  obtain ⟨-, -, -, -, hlen⟩ := q.command_registers
  rw [bytesLeft, bytesLeft, hlen, (q.counters_W_DATA hs).1, hidx]
  omega

/-- Every step of a running command lowers the pair (bytes left, steps to the next byte), in the order of its parts. -/
theorem SeqInv.progress (h : SeqInv s) (q : SeqNext s t) (hl : s.cfg.pollLimit ≠ 0#32) (h0 : s.STATE ≠ .IDLE) :
    bytesLeft t < bytesLeft s ∨ bytesLeft t = bytesLeft s ∧ stepsToByte t < stepsToByte s := by
  by_cases hd : s.STATE = .W_DATA
  · exact .inl (h.bytesLeft_lt q hd)
  · obtain ⟨-, -, -, -, hlen⟩ := q.command_registers
    have hidx := q.IDX.resolve_right hd
    exact .inr ⟨by rw [bytesLeft, bytesLeft, hlen, hidx], q.stepsToByte_lt hl h0 hd⟩

/-- The induction on that pair: a busy step leads to a state the same premises hold of, with a smaller pair. -/
theorem SeqInv.reaches_idle {s : State} (h : SeqInv s) (hu : Undisturbed s) (hl : s.cfg.pollLimit ≠ 0#32) :
    ∃ k t, run k s = .next t ∧ t.STATE = .IDLE := by
  by_cases h0 : s.STATE = .IDLE
  · exact ⟨0, s, rfl, h0⟩
  obtain ⟨hlive, hrst⟩ := hu
  obtain ⟨t, ht⟩ := sequencer_total hlive h.instance_named
  have q := sequencer_next ht
  have kept := q.inputs
  have hsmaller := h.progress q hl h0
  obtain ⟨k, u, hrun, hidle⟩ := SeqInv.reaches_idle (h.next q) ⟨kept.busStall.trans hlive, kept.rst.trans hrst⟩
    (by rwa [kept.cfg])
  exact ⟨k + 1, u, (run_succ ((step_busy h.config hrst h0).trans ht) k).trans hrun, hidle⟩
termination_by (bytesLeft s, stepsToByte s)
decreasing_by exact Prod.lex_def.2 hsmaller

/-- Settles O60: a run to IDLE, by induction on the bytes left and the steps to the next one. -/
theorem boundedPollingTerminates : Obligations.BoundedPollingTerminates := by
  unfold Obligations.BoundedPollingTerminates
  exact fun s h hu hl => h.reaches_idle hu hl

end Sys2Proof.Safety
end

section
/-! PROOFS. Reset (70_reset_and_hazards.md R190, R191): what a reset step answers, what the block does once reset is
released, and the invariant at State.reset. -/

namespace Sys2Proof.Safety

open Sys2Proof.Machine

variable {s : State} {c : Command} {cs : List Command}

/-- Settles O49, by the law of a reset step. -/
theorem resetStep : Obligations.ResetStep := by
  unfold Obligations.ResetStep
  exact fun s hc hr => step_rst hc hr

/-- In IDLE, without reset, the presented command is dispatched and leaves the port (R28, R110). -/
theorem step_accepts (hc : configOk s.cfg = true) (hr : s.rst = false) (h0 : s.STATE = .IDLE)
    (hq : s.cmdQueue = c :: cs) :
    step s = exec (decode s.cfg.ninst c.desc) s ∧ ∃ u, step s = .next u ∧ u.cmdQueue = cs := by
  have hstep := step_presented hc hr hq
  obtain ⟨u, hu⟩ := exec_idle_total (decode s.cfg.ninst c.desc) h0
  have hport := (exec_idle_next h0 hu).keeps.cmdQueue
  exact ⟨hstep, u, hstep.trans hu, by rw [hport, hq, List.tail_cons]⟩

/-- Settles O50: the reset step leaves the port as it was and the block in IDLE, which accepts the command. -/
theorem acceptsAfterReset : Obligations.AcceptsAfterReset := by
  unfold Obligations.AcceptsAfterReset
  intro s t c cs hr hq h
  obtain ⟨hc, ⟨-, rfl⟩ | ⟨hr', -⟩ | ⟨hr', -⟩⟩ := step_next_cases h
  · exact step_accepts (s := { resetRegs s with rst := false }) hc rfl rfl hq
  all_goals cases hr.symm.trans hr'

/-- Settles O56: State.reset is in IDLE with POLLCNT = 0 and the default parameters, which are a block's. -/
theorem invariantAtReset : Obligations.InvariantAtReset := by
  unfold Obligations.InvariantAtReset
  have hc : configOk State.reset.cfg = true := by decide
  exact (bounded_of_pollcnt_zero hc rfl).seqInv_idle rfl

end Sys2Proof.Safety
end
